-- ==== Sys2Proof/Word.lean ====
section
/-! DEFINITION. The words and the data formats of spec/30_encoding.md: byte, FENT (R61), PAIR (R62), FRAME (R63). -/

namespace Sys2Proof

/-- 8 bits, unsigned (00_scope.md section 5.1). Character codes, patterns, opcodes and data bytes are bytes. -/
abbrev Byte := BitVec 8

/-- Format FENT, R61: a font entry "(character code, 8-bit segment pattern)". -/
structure FontEntry where
  code : Byte
  pattern : Byte
  deriving DecidableEq, Repr

/-- Format PAIR, R62: "(character, hasDecimalPoint)". -/
structure Pair where
  ch : Byte
  dp : Bool
  deriving DecidableEq, Repr

/-- Format FRAME, R63: "a two-byte transaction (address, value)". -/
structure Frame where
  opcode : Byte
  data : Byte
  deriving DecidableEq, Repr

/-- The 16-bit word of a frame: opcode in bits 15:8, data in bits 7:0 (R63). -/
def Frame.word (f : Frame) : BitVec 16 := f.opcode ++ f.data

end Sys2Proof
end

