-- ==== Sys2Proof/Config.lean ====
section
/-! DEFINITION. The configuration record CFG of 00_scope.md R7, and the free values: constants without a body,
so that nothing can be proved of what they are. -/

namespace Sys2Proof

/-- CFG, R7: the parameters the document leaves open. A state carries one (log entry 1); no step writes it. -/
structure Cfg where
  /-- FONT, R11: the entries that stand before the sentinel, in order. -/
  font : List FontEntry
  opDecodeMode : Byte
  opIntensity : Byte
  opScanLimit : Byte
  opShutdown : Byte
  opDisplayTest : Byte
  /-- SHUTDOWN_EXIT_VALUE, R7. -/
  shutdownExit : Byte
  /-- TEST_EXIT_VALUE, R7. -/
  testExit : Byte
  /-- BRIGHT_DEFAULT, R7: 0 to 15. -/
  brightDefault : Byte
  /-- PIN_DATA, PIN_CLK, PIN_CS, R13: labels that select no behaviour. -/
  pinData : Nat
  pinClk : Nat
  pinCs : Nat
  /-- OOR_GUARD, R7, R104. -/
  oorGuard : Bool
  deriving DecidableEq, Repr

/-- The five control register opcodes (R21, R49). -/
def Cfg.controlOps (c : Cfg) : List Byte :=
  [c.opDecodeMode, c.opIntensity, c.opScanLimit, c.opShutdown, c.opDisplayTest]

/-- The addresses the document names: the digit registers 1 to 8 and the five control registers (R49). -/
def Cfg.named (c : Cfg) (a : Byte) : Bool :=
  (1 ≤ a && a ≤ 8) || c.controlOps.contains a

/-- FREE VALUE (log 2). DESIGN CHOICE: the words (code in bits 15:8, pattern in bits 7:0, R61) of the font ROM, whose contents
the document does not give (D7, N1). -/
opaque Config.fontRom : List (BitVec 16)

/-- FREE VALUE (log 4). DESIGN CHOICE: BRIGHT_DEFAULT, "a default mid-low value", any number in 0..15 (D10, N5). -/
opaque Config.brightDefault : BitVec 4

/-- FREE VALUE (log 7). DESIGN CHOICE: what each sink register holds at power-up (R30 "unspecified", U3). -/
opaque Config.sinkPowerUp : Byte → Byte

/-- FREE VALUE (log 8). DESIGN CHOICE: the sink's shift register SR at power-up (R30 "unspecified"). -/
opaque Config.srPowerUp : BitVec 16

/-- FREE VALUE (log 8). DESIGN CHOICE: the sink's bit count n at power-up (R30 "unspecified"). -/
opaque Config.countPowerUp : Nat

/-- FREE VALUE (log 9). DESIGN CHOICE: TB at power-up (R30 "unspecified, never read before written"). -/
opaque Config.tbPowerUp : List Byte

/-- FREE VALUE (log 9). DESIGN CHOICE: PL at power-up, a pair being nine bits, the flag in bit 8 (R30). -/
opaque Config.plPowerUp : List (BitVec 9)

/-- FREE VALUE (log 20). DESIGN CHOICE: the byte at a position of TXT below len that the host did not supply (R66). -/
opaque Config.txtUndriven : Nat → Byte

/-- FREE VALUE (log 19). What the sink's register holds after a frame to an address the document does not name
(U4 "any value"): position of the frame in FRAMES, its opcode, its data, the register asked about. -/
opaque Config.strayFrame : Nat → Byte → Byte → Byte → Byte

end Sys2Proof
end

