-- ==== Sys2Proof/Syntax.lean ====
section
/-! DEFINITION. The instructions: one constructor per row of spec/opcode_table.json. -/

namespace Sys2Proof

/-- The operations of the block (R9, R64, R73). Operands are already taken apart; fields a command ignores (R70) are gone. -/
inductive Instr where
  /-- INIT, R90. -/
  | init
  /-- SETBRIGHT level, R91. -/
  | setBright (level : Byte)
  /-- CLEAR, R92. -/
  | clear
  /-- DISPCHAR d, c, dp, R100. -/
  | dispChar (d : Byte) (c : Byte) (dp : Bool)
  /-- DISPTEXT text, justify, R115; justify false is right, true is left (R65). -/
  | dispText (text : List Byte) (justify : Bool)
  /-- ENCODE(c, dp), R80. -/
  | encode (c : Byte) (dp : Bool)
  /-- WRREG op, data, R120. -/
  | wrreg (op : Byte) (data : Byte)
  /-- SHIFTOUT b, R124. -/
  | shiftOut (b : Byte)
  /-- The frames of R64, as RW sends them: digit registers 1 to 8. -/
  | wDig1 (pattern : Byte)
  | wDig2 (pattern : Byte)
  | wDig3 (pattern : Byte)
  | wDig4 (pattern : Byte)
  | wDig5 (pattern : Byte)
  | wDig6 (pattern : Byte)
  | wDig7 (pattern : Byte)
  | wDig8 (pattern : Byte)
  /-- The frames of R64 to the five control registers. -/
  | wDecode (data : Byte)
  | wIntensity (data : Byte)
  | wScanLim (data : Byte)
  | wShutdown (data : Byte)
  | wDispTest (data : Byte)
  deriving DecidableEq, Repr

end Sys2Proof
end

