-- ==== Sys2Proof/WellFormed.lean ====
section
/-! DEFINITION. The checks: of an instruction (the length of a text fits its field, R66) and of a configuration (R7, R11). -/

namespace Sys2Proof

/-- R66: `len` is the 8-bit field a, so a text has at most 255 bytes. Every other operand is bounded by its type. -/
def Instr.wf : Instr → Bool
  | .dispText text _ => text.length ≤ 255
  | .init => true
  | .setBright _ => true
  | .clear => true
  | .dispChar _ _ _ => true
  | .encode _ _ => true
  | .wrreg _ _ => true
  | .shiftOut _ => true
  | .wDig1 _ => true
  | .wDig2 _ => true
  | .wDig3 _ => true
  | .wDig4 _ => true
  | .wDig5 _ => true
  | .wDig6 _ => true
  | .wDig7 _ => true
  | .wDig8 _ => true
  | .wDecode _ => true
  | .wIntensity _ => true
  | .wScanLim _ => true
  | .wShutdown _ => true
  | .wDispTest _ => true

/-- R11 (a): no entry has code 0. -/
def Cfg.fontHasNoZero (c : Cfg) : Bool := c.font.all fun e => e.code != 0

/-- R11 (b): no two entries have one code. -/
def Cfg.fontHasNoRepeat (c : Cfg) : Bool := decide (c.font.map FontEntry.code).Nodup

/-- R7: the five control opcodes are pairwise distinct and none is in 1..8. -/
def Cfg.opsDistinct (c : Cfg) : Bool :=
  decide c.controlOps.Nodup && c.controlOps.all fun a => !(1 ≤ a && a ≤ 8)

/-- R7: 0 <= BRIGHT_DEFAULT <= 15. -/
def Cfg.brightInRange (c : Cfg) : Bool := c.brightDefault ≤ 15

/-- R7: the pin labels are pairwise distinct. -/
def Cfg.pinsDistinct (c : Cfg) : Bool := decide [c.pinData, c.pinClk, c.pinCs].Nodup

/-- The constraints of R7 and R11 on a configuration. The machine runs under any configuration; claims take this as a premise
where they need it (U7). -/
def Cfg.wf (c : Cfg) : Bool :=
  c.fontHasNoZero && c.fontHasNoRepeat && c.opsDistinct && c.brightInRange && c.pinsDistinct

end Sys2Proof
end

