-- ==== Sys2Proof/Machine/Params.lean ====
section
/-! DEFINITION. The constants of 00_scope.md R6 and the configuration a machine comes up with (R7, R30 "their CFG values"). -/

namespace Sys2Proof.Machine

/-- REMAP_LO, REMAP_HI, REMAP_ADD, R6: codes 35 to 44 are remapped by adding 13. -/
def remapLo : Byte := 35
def remapHi : Byte := 44
def remapAdd : Byte := 13

/-- DP_MASK, R6: bit 7, the decimal point. -/
def dpMask : Byte := 0x80

/-- BLANK, R6: the pattern of an unknown character, and what CLEAR writes. -/
def blank : Byte := 0x00

/-- DOT, R6: the code of the full stop. PRESUMED (log 28): 46 is the ASCII table's number, not the document's (G1). -/
def dot : Byte := 46

/-- TEXT_MAX and PAIR_MAX, R6. -/
def textMax : Nat := 16
def pairMax : Nat := 8

/-- SCAN_LIMIT_VALUE and DECODE_MODE_VALUE, R6. -/
def scanLimitValue : Byte := 0x07
def decodeModeValue : Byte := 0x00

/-- FRAME_BITS, R6. -/
def frameBits : Nat := 16

/-- The FONT a ROM holds (R11, R61): the entries before the first word with code 0, an entry whose code stands earlier left
out, since it can never be the first match (R82). -/
def fontOfRom (rom : List (BitVec 16)) (seen : List Byte) : List FontEntry :=
  match rom with
  | [] => []
  | w :: rest =>
    let code := w.extractLsb' 8 8
    if code = 0 then []
    else if seen.contains code then fontOfRom rest seen
    else ⟨code, w.extractLsb' 0 8⟩ :: fontOfRom rest (code :: seen)

/-- The configuration at reset. FONT and BRIGHT_DEFAULT are free values (log 2, 4). PRESUMED (log 3): the five opcodes and the
two exit values are the defaults R7 offers from the family of the chip. DESIGN CHOICE (log 5): the pin labels. The guard is
off, the original behaviour (R7; log 6). -/
def resetCfg : Cfg where
  font := fontOfRom Config.fontRom []
  opDecodeMode := 0x09
  opIntensity := 0x0A
  opScanLimit := 0x0B
  opShutdown := 0x0C
  opDisplayTest := 0x0F
  shutdownExit := 0x01
  testExit := 0x00
  brightDefault := Config.brightDefault.setWidth 8
  pinData := 0
  pinClk := 1
  pinCs := 2
  oorGuard := false

end Sys2Proof.Machine
end

