-- ==== Sys2Proof/Decode.lean ====
section
/-! DEFINITION. The instruction words of spec/30_encoding.md (CMD R65, ENC port R67, FRAME R63, BYTE R124), the decoder, total
on every word, and after it the encoder and the rows of spec/opcode_table.json. -/

namespace Sys2Proof

/-- A word as it is presented to the block, in the format of the place it is presented at. -/
inductive InstrWord where
  /-- The 25-bit command word, with the text buffer TXT the host holds beside it (R65, R66). -/
  | cmd (word : BitVec 25) (txt : List Byte)
  /-- The ENC port's input, decimal point in bit 8 (R67). -/
  | enc (word : BitVec 9)
  /-- A direct call of WRREG, its operands as the frame word (R120). -/
  | call (word : BitVec 16)
  /-- A frame given as the sink sees it (R64). -/
  | frame (word : BitVec 16)
  /-- A direct call of SHIFTOUT (R124). -/
  | byte (b : Byte)
  deriving DecidableEq, Repr

/-- Why a word is no instruction. -/
inductive DecodeError where
  /-- R70: a command code other than 0x01 to 0x05. -/
  | notACommand (op : Byte)
  deriving DecidableEq, Repr

/-- The fields of a command word (R65). -/
def cmdFlag (w : BitVec 25) : Bool := w.getLsbD 24
def cmdOp (w : BitVec 25) : Byte := w.extractLsb' 16 8
def cmdA (w : BitVec 25) : Byte := w.extractLsb' 8 8
def cmdB (w : BitVec 25) : Byte := w.extractLsb' 0 8

/-- TXT[0..len-1], R66. A byte the host did not supply is a free value (log 20). -/
def readTxt (txt : List Byte) (len : Nat) : List Byte :=
  (List.range len).map fun i => txt.getD i (Config.txtUndriven i)

/-- The command word's decoder, R65; other codes are refused by name (R70). -/
def decodeCmd (w : BitVec 25) (txt : List Byte) : Except DecodeError Instr :=
  if cmdOp w = 0x01 then .ok .init
  else if cmdOp w = 0x02 then .ok (.setBright (cmdB w))
  else if cmdOp w = 0x03 then .ok .clear
  else if cmdOp w = 0x04 then .ok (.dispChar (cmdA w) (cmdB w) (cmdFlag w))
  else if cmdOp w = 0x05 then .ok (.dispText (readTxt txt (cmdA w).toNat) (cmdFlag w))
  else .error (.notACommand (cmdOp w))

/-- A frame by its opcode byte, R64; an opcode the document does not name is sent "exactly as any other" (R71), as WRREG. -/
def decodeFrame (cfg : Cfg) (op data : Byte) : Instr :=
  if op = 1 then .wDig1 data
  else if op = 2 then .wDig2 data
  else if op = 3 then .wDig3 data
  else if op = 4 then .wDig4 data
  else if op = 5 then .wDig5 data
  else if op = 6 then .wDig6 data
  else if op = 7 then .wDig7 data
  else if op = 8 then .wDig8 data
  else if op = cfg.opDecodeMode then .wDecode data
  else if op = cfg.opIntensity then .wIntensity data
  else if op = cfg.opScanLimit then .wScanLim data
  else if op = cfg.opShutdown then .wShutdown data
  else if op = cfg.opDisplayTest then .wDispTest data
  else .wrreg op data

/-- The decoder. The control opcodes are parameters (R7), so it takes the configuration. -/
def decode (cfg : Cfg) : InstrWord → Except DecodeError Instr
  | .cmd w txt => decodeCmd w txt
  | .enc w => .ok (.encode (w.extractLsb' 0 8) (w.getLsbD 8))
  | .call w => .ok (.wrreg (w.extractLsb' 8 8) (w.extractLsb' 0 8))
  | .frame w => .ok (decodeFrame cfg (w.extractLsb' 8 8) (w.extractLsb' 0 8))
  | .byte b => .ok (.shiftOut b)

/-- The command word {f, op, a, b}, R65. -/
def cmdWord (f : Bool) (op a b : Byte) : BitVec 25 := BitVec.ofBool f ++ (op ++ (a ++ b))

/-- The encoder, from the same formats. Fields a command ignores are written as 0. -/
def encode (cfg : Cfg) : Instr → InstrWord
  | .init => .cmd (cmdWord false 0x01 0 0) []
  | .setBright level => .cmd (cmdWord false 0x02 0 level) []
  | .clear => .cmd (cmdWord false 0x03 0 0) []
  | .dispChar d c dp => .cmd (cmdWord dp 0x04 d c) []
  | .dispText text j => .cmd (cmdWord j 0x05 (BitVec.ofNat 8 text.length) 0) text
  | .encode c dp => .enc (BitVec.ofBool dp ++ c)
  | .wrreg op data => .call (op ++ data)
  | .shiftOut b => .byte b
  | .wDig1 p => .frame ((1 : Byte) ++ p)
  | .wDig2 p => .frame ((2 : Byte) ++ p)
  | .wDig3 p => .frame ((3 : Byte) ++ p)
  | .wDig4 p => .frame ((4 : Byte) ++ p)
  | .wDig5 p => .frame ((5 : Byte) ++ p)
  | .wDig6 p => .frame ((6 : Byte) ++ p)
  | .wDig7 p => .frame ((7 : Byte) ++ p)
  | .wDig8 p => .frame ((8 : Byte) ++ p)
  | .wDecode d => .frame (cfg.opDecodeMode ++ d)
  | .wIntensity d => .frame (cfg.opIntensity ++ d)
  | .wScanLim d => .frame (cfg.opScanLimit ++ d)
  | .wShutdown d => .frame (cfg.opShutdown ++ d)
  | .wDispTest d => .frame (cfg.opDisplayTest ++ d)

/-- The number a word is, bit 0 the least significant, as spec/opcode_table.json numbers its bits. -/
def InstrWord.number : InstrWord → Nat
  | .cmd w _ => w.toNat
  | .enc w => w.toNat
  | .call w => w.toNat
  | .frame w => w.toNat
  | .byte b => b.toNat

/-- The "mask" and "match" of an instruction's row of spec/opcode_table.json. A control frame's match is its default opcode's. -/
def Instr.tableRow : Instr → Nat × Nat
  | .init => (0x0FF0000, 0x0010000)
  | .setBright _ => (0x0FF0000, 0x0020000)
  | .clear => (0x0FF0000, 0x0030000)
  | .dispChar _ _ _ => (0x0FF0000, 0x0040000)
  | .dispText _ _ => (0x0FF0000, 0x0050000)
  | .encode _ _ => (0x000, 0x000)
  | .wrreg _ _ => (0x0000, 0x0000)
  | .shiftOut _ => (0x00, 0x00)
  | .wDig1 _ => (0xFF00, 0x0100)
  | .wDig2 _ => (0xFF00, 0x0200)
  | .wDig3 _ => (0xFF00, 0x0300)
  | .wDig4 _ => (0xFF00, 0x0400)
  | .wDig5 _ => (0xFF00, 0x0500)
  | .wDig6 _ => (0xFF00, 0x0600)
  | .wDig7 _ => (0xFF00, 0x0700)
  | .wDig8 _ => (0xFF00, 0x0800)
  | .wDecode _ => (0xFF00, 0x0900)
  | .wIntensity _ => (0xFF00, 0x0A00)
  | .wScanLim _ => (0xFF00, 0x0B00)
  | .wShutdown _ => (0xFF00, 0x0C00)
  | .wDispTest _ => (0xFF00, 0x0F00)

/-- The word that a table row's number stands for, by the row's width (25 bits lie in 32, 9 bits in 16). DESIGN CHOICE (log 16):
the table has three 16-bit formats; a high byte of 0 is read as the ENC port's input with the flag 0, any other high byte as a
frame. A text operand the table gives no bits is all zeros. -/
def tableWord (nbits w : Nat) : Option InstrWord :=
  if nbits = 8 ∧ w < 2 ^ 8 then some (.byte (BitVec.ofNat 8 w))
  else if nbits = 9 ∧ w < 2 ^ 9 then some (.enc (BitVec.ofNat 9 w))
  else if nbits = 16 ∧ w < 2 ^ 8 then some (.enc (BitVec.ofNat 9 w))
  else if nbits = 16 ∧ w < 2 ^ 16 then some (.frame (BitVec.ofNat 16 w))
  else if (nbits = 25 ∨ nbits = 32) ∧ w < 2 ^ 25 then some (.cmd (BitVec.ofNat 25 w) (List.replicate 255 0))
  else none

/-- What the decoder reads from a table row's word, under the configuration at reset. -/
def decodeTableWord (nbits w : Nat) : Option Instr :=
  match tableWord nbits w with
  | none => none
  | some iw =>
    match decode Machine.resetCfg iw with
    | .ok i => some i
    | .error _ => none

end Sys2Proof
end

