-- ==== Sys2Proof/Machine/State.lean ====
section
/-! DEFINITION. The state of 10_state.md R10 as plain data, the reasons a step stops, and the state after reset (R30). -/

namespace Sys2Proof.Machine

/-- The three output lines, R16. -/
inductive Line where
  | data
  | clk
  | cs
  deriving DecidableEq, Repr

/-- One pin assignment `(p, v)`, R126. -/
structure Assign where
  line : Line
  level : Bool
  deriving DecidableEq, Repr

/-- The device lifecycle, R15; DisplayTestMode is no value of it (C1). -/
inductive Life where
  | uninitialized
  | active
  deriving DecidableEq, Repr

/-- The position inside the running command, R17, R127: the remaining pin assignment list L, and whether INIT runs. -/
inductive Phase where
  | idle
  | running (isInit : Bool) (rest : List Assign)
  deriving DecidableEq, Repr

/-- What the host does next (R31: inputs, not state of the block; R164: the host's liberties; log 12). -/
inductive HostInput where
  /-- Presents a command word with its text buffer, and keeps presenting it until it is accepted (R65, R148). -/
  | cmd (word : BitVec 25) (txt : List Byte)
  /-- Drives the ENC port (R67). -/
  | enc (word : BitVec 9)
  /-- Asserts the reset input (R160, D2). -/
  | rst
  /-- Presents nothing for one step (R31: when to present a command is the host's choice). -/
  | pause
  deriving DecidableEq, Repr

/-- An internal primitive called directly, by a bench and by no host (R9, R65; log 15). -/
inductive Primitive where
  | wrreg (word : BitVec 16)
  | frame (word : BitVec 16)
  | shiftOut (b : Byte)
  deriving DecidableEq, Repr

/-- The complete state, R10, with the two error outputs of R146, the ENC port of R67 and the inputs still to come. -/
structure State where
  /-- CFG with FONT and the pin labels, R7, R11 to R13: read-only. -/
  cfg : Cfg
  /-- R15. -/
  life : Life
  /-- The output lines, R16. -/
  cs : Bool
  clk : Bool
  data : Bool
  /-- R17. -/
  busy : Bool
  phase : Phase
  /-- The working storage of DISPTEXT, R18. -/
  tb : List Byte
  pl : List Pair
  /-- The outputs of InvalidArgument, R146. -/
  err : Bool
  errInfo : Byte
  /-- The ENC port, R67: the input last driven and the output it gives. -/
  encIn : BitVec 9
  encOut : Byte
  /-- REG, R10, R28: the cells the sink has committed since reset, addresses strictly rising. -/
  sink : List Host.Cell
  /-- The sink receiver's SR and n, R26. -/
  sr : BitVec 16
  count : Nat
  /-- The histories, R25. -/
  frames : List Frame
  wire : List Assign
  /-- The model's own fields: what the host will present, and the slot for a direct call of a primitive. -/
  host : List HostInput
  prim : Option Primitive
  deriving DecidableEq, Repr

/-- Why the machine stops. -/
inductive Fault where
  /-- R134: the sink receiver sees a rising edge of CS with n other than 16. Raised by `State.receive`. Safe: nothing is committed
  and nothing is claimed of what a real sink does (U2); no run from reset reaches it. -/
  | malformedFrame (n : Nat)
  deriving DecidableEq, Repr

/-- Why a step gives a word no meaning. -/
inductive Refusal where
  /-- An instruction not modelled yet, by its mnemonic. Safe. No arm of `exec` answers with it. -/
  | notModelled (mnemonic : String)
  /-- R70, U9: a command code other than 0x01 to 0x05. Raised by `step` when it decodes a command word. Safe. -/
  | notACommand (op : Byte)
  deriving DecidableEq, Repr

/-- The machine right after reset, R30, R160. What R30 leaves unspecified is a free value (log 7, 8, 9); DESIGN CHOICE (log 10, 11):
the ENC port's input and err_info, which R30 does not list, are 0. -/
def State.reset : State where
  cfg := resetCfg
  life := .uninitialized
  cs := true
  clk := false
  data := false
  busy := false
  phase := .idle
  tb := Config.tbPowerUp.take textMax
  pl := ((Config.plPowerUp.map fun w => ⟨w.extractLsb' 0 8, w.getLsbD 8⟩).filter fun p => p.ch != dot).take pairMax
  err := false
  errInfo := 0
  encIn := 0
  encOut := 0
  sink := []
  sr := Config.srPowerUp
  count := Config.countPowerUp
  frames := []
  wire := []
  host := []
  prim := none

/-- The outcome of a step of this machine. -/
abbrev Outcome := Host.Outcome State Fault Refusal

end Sys2Proof.Machine
end

