-- ==== Sys2Proof/Machine/Flags.lean ====
section
/-! DEFINITION. The one-bit quantities of R24: the decimal-point flags of ENCODE and of the text layout, busy, and err (R146). -/

namespace Sys2Proof.Machine

/-- R81: a code in 35..44, compared unsigned (D5). -/
def inRemap (c : Byte) : Bool := remapLo ≤ c && c ≤ remapHi

/-- R24 (b), R81: the effective decimal-point flag inside ENCODE. -/
def effectiveDp (c : Byte) (dp : Bool) : Bool := if inRemap c then true else dp

/-- R24 (a), R111: "it sets the decimal-point flag on the immediately preceding output pair"; with no pair it is dropped. -/
def setLastDp : List Pair → List Pair
  | [] => []
  | [p] => [{ p with dp := true }]
  | p :: q :: rest => p :: setLastDp (q :: rest)

/-- The level R127 gives busy when a command with pin assignment list L is accepted: a command whose list is empty ends at once. -/
def busyAfterAccept (l : List Assign) : Bool := !l.isEmpty

/-- R146: the error code, 1 for InvalidArgument and 0 for no error. -/
def State.errCode (s : State) : Byte := if s.err then 1 else 0

end Sys2Proof.Machine
end

