-- ==== Sys2Proof/Machine/Operands.lean ====
section
/-! DEFINITION. Every operand computation of R68, the font lookup (R82), the text layout (R110 to R114) and the pin assignment
lists of RW (R123, R124). -/

namespace Sys2Proof.Machine

/-- Remap, R81. Applied once; for 35..44 the sum is 48..57. -/
def remap (c : Byte) (dp : Bool) : Byte × Bool :=
  (if inRemap c then c + remapAdd else c, effectiveDp c dp)

/-- Lookup, R82: the first entry that matches, the scan ending at an entry with code 0 without comparing it (D6). -/
def lookup (font : List FontEntry) (k : Byte) : Option Byte :=
  match font with
  | [] => none
  | e :: rest =>
    if e.code = 0 then none
    else if e.code = k then some e.pattern
    else lookup rest k

/-- The pattern of a lookup's result under the effective flag: a miss is blank (R83), a hit is the pattern, with bit 7 ORed in
when the flag is set (R84). -/
def patternOf (hit : Option Byte) (dp : Bool) : Byte :=
  match hit with
  | none => blank
  | some p => if dp then p ||| dpMask else p

/-- ENCODE, R80: the remap, the one lookup, the miss and hit rules. -/
def encodeChar (cfg : Cfg) (c : Byte) (dp : Bool) : Byte :=
  patternOf (lookup cfg.font (remap c dp).1) (remap c dp).2

/-- A word of the direct-mapped ROM of R86: the hit bit over the pattern. -/
def romWord (cfg : Cfg) (k : Byte) : BitVec 9 :=
  match lookup cfg.font k with
  | none => 0
  | some p => (1 : BitVec 1) ++ p

/-- ENCODE in the direct-mapped form of R86. -/
def encodeRom (cfg : Cfg) (c : Byte) (dp : Bool) : Byte :=
  let w := romWord cfg (remap c dp).1
  if w.getLsbD 8 then (if (remap c dp).2 then w.extractLsb' 0 8 ||| dpMask else w.extractLsb' 0 8) else blank

/-- Addr, R101: the digit register address `(d + 1) mod 256`. -/
def addr (d : Byte) : Byte := d + 1

/-- The frame of DISPCHAR d, c, dp, R100. -/
def charFrame (cfg : Cfg) (d c : Byte) (dp : Bool) : Frame := ⟨addr d, encodeChar cfg c dp⟩

/-- The guard of R104: with CFG.OOR_GUARD an index above 7 is refused. -/
def outOfRange (cfg : Cfg) (d : Byte) : Bool := cfg.oorGuard && decide (7 < d)

/-- The frames a call of DISPCHAR emits, R100: one, or none when the guard refuses. -/
def charFrames (cfg : Cfg) (d c : Byte) (dp : Bool) : List Frame :=
  if outOfRange cfg d then [] else [charFrame cfg d c dp]

/-- One character of the fold, R111. -/
def foldChar (pl : List Pair) (ch : Byte) : List Pair :=
  if ch = dot then setLastDp pl else pl ++ [⟨ch, false⟩]

/-- Fold, R111: the scan from left to right. -/
def fold (tb : List Byte) : List Pair := tb.foldl foldChar []

/-- Step 1 of DISPTEXT, R110. -/
def truncate (text : List Byte) : List Byte := text.take textMax

/-- Steps 2 and 3 of DISPTEXT, R111 and R112: the pair list after the clamp. -/
def layout (tb : List Byte) : List Pair := (fold tb).take pairMax

/-- The digit of pair x of y: R113 for right justification, R114 for left. -/
def digitOf (justify : Bool) (y x : Nat) : Nat := if justify then 7 - x else y - x - 1

/-- Step 6 of DISPTEXT, R115: one call of DISPCHAR per pair, in ascending x (D14). -/
def textFrames (cfg : Cfg) (pl : List Pair) (justify : Bool) : List Frame :=
  pl.zipIdx.flatMap fun (p, x) => charFrames cfg (BitVec.ofNat 8 (digitOf justify pl.length x)) p.ch p.dp

/-- The one frame of SETBRIGHT, R91: the level unmasked. -/
def brightFrames (cfg : Cfg) (level : Byte) : List Frame := [⟨cfg.opIntensity, level⟩]

/-- The frames of CLEAR, R92: 0x00 to the registers 1 to 8, ascending (D13). -/
def clearFrames : List Frame := [1, 2, 3, 4, 5, 6, 7, 8].map fun k => ⟨k, blank⟩

/-- The 13 frames of INIT, R90, in the order of the document's sentence (D12). -/
def initFrames (cfg : Cfg) : List Frame :=
  [⟨cfg.opScanLimit, scanLimitValue⟩, ⟨cfg.opDecodeMode, decodeModeValue⟩,
   ⟨cfg.opShutdown, cfg.shutdownExit⟩, ⟨cfg.opDisplayTest, cfg.testExit⟩]
  ++ clearFrames ++ [⟨cfg.opIntensity, cfg.brightDefault⟩]

/-- The three assignments of one shifted bit, R124: data first, then the clock rises and falls. PRESUMED (log 17): D16. -/
def bitPins (b : Bool) : List Assign := [⟨.data, b⟩, ⟨.clk, true⟩, ⟨.clk, false⟩]

/-- SHIFTOUT, R124: the byte's bits from 7 down to 0. -/
def shiftPins (b : Byte) : List Assign := [7, 6, 5, 4, 3, 2, 1, 0].flatMap fun i => bitPins (b.getLsbD i)

/-- WRREG at the pin level, R123: CS low, the opcode, the data, CS high. -/
def framePins (f : Frame) : List Assign :=
  [⟨.cs, false⟩] ++ shiftPins f.opcode ++ shiftPins f.data ++ [⟨.cs, true⟩]

/-- The pin assignment list of a list of WRREG calls, R127. -/
def pinsOf (fs : List Frame) : List Assign := fs.flatMap framePins

/-- The pin assignment list of INIT, R90, R127: `(CS,1)` and then the 13 frames. -/
def initPins (cfg : Cfg) : List Assign := ⟨.cs, true⟩ :: pinsOf (initFrames cfg)

end Sys2Proof.Machine
end

