-- ==== Sys2Proof/Machine/Ops.lean ====
section
/-! DEFINITION. The named operations: the sink's register space, a pin assignment with the receiver behind it (R126, R131 to R134),
the frame level (R120), accepting and ending a command (R127, R148), InvalidArgument (R146) and the reset input (R160). -/

namespace Sys2Proof.Machine

/-- What an address of the sink's register space holds by the frames committed since reset: an unlisted address holds no
written value (R30 "a cell that holds no value until written"; log 7). -/
def Memory.read (m : List Host.Cell) (a : Nat) : Option Byte :=
  match m with
  | [] => none
  | (k, v) :: rest => if k = a then some v else Memory.read rest a

/-- `REG[a] <- v`, R133, keeping the addresses strictly rising. -/
def Memory.write (m : List Host.Cell) (a : Nat) (v : Byte) : List Host.Cell :=
  match m with
  | [] => [(a, v)]
  | (k, w) :: rest =>
    if a < k then (a, v) :: (k, w) :: rest
    else if a = k then (a, v) :: rest
    else (k, w) :: Memory.write rest a v

/-- The canonical form: addresses strictly rising and inside the 256 of R40. An unlisted address reads as no value, so that no
entry equals what an unlisted address reads as. -/
def Memory.wf (m : List Host.Cell) : Bool :=
  decide (m.Pairwise fun x y => x.1 < y.1) && m.all fun c => decide (c.1 < 256)

/-- `REG[a]`, R28: the data of the last frame to a, or else its unspecified reset content, a free value. -/
def State.reg (s : State) (a : Byte) : Byte := (Memory.read s.sink a.toNat).getD (Config.sinkPowerUp a)

/-- The commit of R133: FRAMES grows by the frame and REG[op] takes the data byte. -/
def State.commit (f : Frame) (s : State) : State :=
  { s with frames := s.frames ++ [f], sink := Memory.write s.sink f.opcode.toNat f.data }

/-- `Pin(p) <- v`, R126: the line takes the level and WIRE grows, level-repeating assignments too (D24). -/
def State.drive (a : Assign) (s : State) : State :=
  match a.line with
  | .data => { s with data := a.level, wire := s.wire ++ [a] }
  | .clk => { s with clk := a.level, wire := s.wire ++ [a] }
  | .cs => { s with cs := a.level, wire := s.wire ++ [a] }

/-- R131: on a falling edge of CS the receiver sets n to 0; SR keeps its content. -/
def State.receiverStart (s : State) : State := { s with count := 0 }

/-- R132: `SR <- {SR[14:0], DATA}` and `n <- n + 1`. -/
def State.sample (s : State) : State :=
  { s with sr := s.sr.extractLsb' 0 15 ++ BitVec.ofBool s.data, count := s.count + 1 }

/-- The frame in SR, R133: op is SR[15:8], data is SR[7:0]. -/
def State.srFrame (s : State) : Frame := ⟨s.sr.extractLsb' 8 8, s.sr.extractLsb' 0 8⟩

/-- The sink receiver, R131 to R134, when the assignment `a` has taken the lines from `old` to `s`. PRESUMED (log 18): D18. -/
def State.receive (old : State) (a : Assign) (s : State) : Outcome :=
  match a.line with
  | .data => .next s
  | .clk => if !old.clk && a.level && !old.cs then .next s.sample else .next s
  | .cs =>
    if old.cs && !a.level then .next s.receiverStart
    else if !old.cs && a.level then
      if s.count = frameBits then .next (s.commit s.srFrame) else .fault (.malformedFrame s.count)
    else .next s

/-- One pin assignment: the block drives the line and the sink reads the edge. -/
def State.pin (a : Assign) (s : State) : Outcome := s.receive a (s.drive a)

/-- A pin assignment list performed from its head on, ending at a fault. -/
def State.pins (l : List Assign) (s : State) : Outcome :=
  match l with
  | [] => .next s
  | a :: rest =>
    match s.pin a with
    | .next t => State.pins rest t
    | .fault r => .fault r
    | .refused r => .refused r

/-- WRREG at the frame level, `Emit(op, d)` of R120: FRAMES and REG, with what R125 and R135 say the 50 assignments leave in WIRE,
on the lines and in the receiver when they start from CS = 1, CLK = 0. -/
def State.emit (s : State) (f : Frame) : State :=
  { s.commit f with
    wire := s.wire ++ framePins f, data := f.data.getLsbD 0, sr := f.word, count := frameBits }

/-- A list of WRREG calls at the frame level. -/
def State.emits (fs : List Frame) (s : State) : State := fs.foldl State.emit s

/-- The end of a command, R127: busy falls, and after INIT the device is Active (it is since INIT's last commit, `State.advance`). -/
def State.finish (isInit : Bool) (s : State) : State :=
  { s with busy := false, phase := .idle, life := if isInit then .active else s.life }

/-- The sequencer takes up a pin assignment list, R127; a command whose list is empty ends at once (log 14). -/
def State.start (isInit : Bool) (l : List Assign) (s : State) : State :=
  if busyAfterAccept l then { s with busy := true, phase := .running isInit l } else s.finish isInit

/-- The sequencer takes the head off its list, R127, `rest` being what is left. When nothing is left of INIT's, the assignment it
performs is the one that commits INIT's last frame, and life is Active with it (R15). -/
def State.advance (isInit : Bool) (rest : List Assign) (s : State) : State :=
  { s with phase := .running isInit rest, life := if isInit && rest.isEmpty then .active else s.life }

/-- One step of the sequencer, R127: the head of L, or the end when L is empty (R17; log 13). While idle the block does nothing. -/
def State.tick (s : State) : Outcome :=
  if s.busy then
    match s.phase with
    | .running isInit (a :: rest) => State.pin a (s.advance isInit rest)
    | .running isInit [] => .next (s.finish isInit)
    | .idle => .next (s.finish false)
  else .next s

/-- Nothing is accepted while busy, R148: the word waits and nothing changes (log 25). -/
def State.whenFree (s : State) (f : State → Outcome) : Outcome := if s.busy then .next s else f s

/-- The acceptance of a host command, R127: only when busy = 0, and err falls (R146). -/
def State.accept (s : State) (f : State → Outcome) : Outcome :=
  s.whenFree fun s => f { s with err := false }

/-- Taking InvalidArgument, R146: err and err_info; no frame, no pin assignment, and the command ends at once. There is no handler
to go to and no return (R145). -/
def State.raiseInvalidArgument (d : Byte) (s : State) : State := { s with err := true, errInfo := d }

/-- The reset input, R160: the state of R30 again, under the same configuration. What the host drives, the ENC port (a
combinational function, R67) and its further inputs, stands (log 23). -/
def State.restart (s : State) : State :=
  { State.reset with cfg := s.cfg, encIn := s.encIn, encOut := s.encOut, host := s.host }

end Sys2Proof.Machine
end

