-- ==== Sys2Proof/Machine/ConfigCommands.lean ====
section
/-! DEFINITION. The configuration commands (spec/41_config_commands.md): INIT, SETBRIGHT, CLEAR. Each meaning is the acceptance of
R127; the sequencer then performs the pin assignment list. -/

namespace Sys2Proof.Machine

/-- INIT, R90: unguarded (R93), 13 frames after `Pin(CS) <- 1`, then life is Active. -/
def execInit (s : State) : Outcome :=
  s.accept fun s => .next (s.start true (initPins s.cfg))

/-- SETBRIGHT, R91: the level goes out unchanged. -/
def execSetBright (level : Byte) (s : State) : Outcome :=
  s.accept fun s => .next (s.start false (pinsOf (brightFrames s.cfg level)))

/-- CLEAR, R92. -/
def execClear (s : State) : Outcome :=
  s.accept fun s => .next (s.start false (pinsOf clearFrames))

end Sys2Proof.Machine
end

