-- ==== Sys2Proof/Machine/Display.lean ====
section
/-! DEFINITION. DSEL (spec/42_display_char.md, spec/43_display_text.md): DISPCHAR and DISPTEXT. -/

namespace Sys2Proof.Machine

/-- DISPCHAR, R100: the guard first (R144), then the one frame. Out of range with the guard off the frame goes out all the same
(R103); refused by the guard, the command raises InvalidArgument (R104, R146). -/
def execDispChar (d c : Byte) (dp : Bool) (s : State) : Outcome :=
  s.accept fun s =>
    if outOfRange s.cfg d then .next (s.raiseInvalidArgument d)
    else .next (s.start false (pinsOf (charFrames s.cfg d c dp)))

/-- DISPTEXT, R115: TB and PL at acceptance (R127, R176), then one DISPCHAR a pair. -/
def execDispText (text : List Byte) (justify : Bool) (s : State) : Outcome :=
  s.accept fun s =>
    let tb := truncate text
    let pl := layout tb
    .next ({ s with tb := tb, pl := pl }.start false (pinsOf (textFrames s.cfg pl justify)))

end Sys2Proof.Machine
end

