-- ==== Sys2Proof/Machine/Encoder.lean ====
section
/-! DEFINITION. ENC (spec/40_encoder.md): the meaning of ENCODE at its port. -/

namespace Sys2Proof.Machine

/-- ENCODE at the ENC port, R67, R80: `enc_out = ENCODE(character, decimalPoint)`, busy or not; no other state is written (R85). -/
def execEncode (c : Byte) (dp : Bool) (s : State) : Outcome :=
  .next { s with encIn := BitVec.ofBool dp ++ c, encOut := encodeChar s.cfg c dp }

end Sys2Proof.Machine
end

