-- ==== Sys2Proof/Machine/RegisterWriter.lean ====
section
/-! DEFINITION. RW (spec/44_write_register.md): the internal primitives WRREG and SHIFTOUT, called directly (log 15). -/

namespace Sys2Proof.Machine

/-- A direct call of WRREG for one frame: its 50 pin assignments (R123), when the sequencer is free (R122). -/
def State.sendFrame (f : Frame) (s : State) : Outcome :=
  s.whenFree fun s => .next (s.start false (framePins f))

/-- WRREG, R120: any opcode byte and any data byte (R121). -/
def execWrreg (op data : Byte) (s : State) : Outcome := s.sendFrame ⟨op, data⟩

/-- SHIFTOUT, R124: 24 pin assignments, no chip-select. -/
def execShiftOut (b : Byte) (s : State) : Outcome :=
  s.whenFree fun s => .next (s.start false (shiftPins b))

end Sys2Proof.Machine
end

