-- ==== Sys2Proof/Machine/Frames.lean ====
section
/-! DEFINITION. The 13 named frames of R64, as RW sends them and the sink commits them (R133). -/

namespace Sys2Proof.Machine

/-- W.DIG1 to W.DIG8: a pattern to the digit register (R19). -/
def execWDig1 (p : Byte) (s : State) : Outcome := s.sendFrame ⟨1, p⟩
def execWDig2 (p : Byte) (s : State) : Outcome := s.sendFrame ⟨2, p⟩
def execWDig3 (p : Byte) (s : State) : Outcome := s.sendFrame ⟨3, p⟩
def execWDig4 (p : Byte) (s : State) : Outcome := s.sendFrame ⟨4, p⟩
def execWDig5 (p : Byte) (s : State) : Outcome := s.sendFrame ⟨5, p⟩
def execWDig6 (p : Byte) (s : State) : Outcome := s.sendFrame ⟨6, p⟩
def execWDig7 (p : Byte) (s : State) : Outcome := s.sendFrame ⟨7, p⟩
def execWDig8 (p : Byte) (s : State) : Outcome := s.sendFrame ⟨8, p⟩

/-- W.DECODE: the whole byte goes out; the block itself sends only 0x00 (R21). -/
def execWDecode (d : Byte) (s : State) : Outcome := s.sendFrame ⟨s.cfg.opDecodeMode, d⟩

/-- W.INTENSITY: the sink uses bits 3:0 (R22). -/
def execWIntensity (d : Byte) (s : State) : Outcome := s.sendFrame ⟨s.cfg.opIntensity, d⟩

/-- W.SCANLIM: the block itself sends only 0x07 (R21). -/
def execWScanLim (d : Byte) (s : State) : Outcome := s.sendFrame ⟨s.cfg.opScanLimit, d⟩

/-- W.SHUTDOWN: the block itself sends only CFG.SHUTDOWN_EXIT_VALUE (R21). -/
def execWShutdown (d : Byte) (s : State) : Outcome := s.sendFrame ⟨s.cfg.opShutdown, d⟩

/-- W.DISPTEST: the block itself sends only CFG.TEST_EXIT_VALUE (R21). -/
def execWDispTest (d : Byte) (s : State) : Outcome := s.sendFrame ⟨s.cfg.opDisplayTest, d⟩

end Sys2Proof.Machine
end

