-- ==== Sys2Proof/Machine/Dispatch.lean ====
section
/-! DEFINITION. One arm per instruction. -/

namespace Sys2Proof.Machine

def exec (i : Instr) (s : State) : Host.Outcome State Fault Refusal :=
  match i with
  | .init => Sys2Proof.Machine.execInit s
  | .setBright level => Sys2Proof.Machine.execSetBright level s
  | .clear => Sys2Proof.Machine.execClear s
  | .dispChar d c dp => Sys2Proof.Machine.execDispChar d c dp s
  | .dispText text justify => Sys2Proof.Machine.execDispText text justify s
  | .encode c dp => Sys2Proof.Machine.execEncode c dp s
  | .wrreg op data => Sys2Proof.Machine.execWrreg op data s
  | .shiftOut b => Sys2Proof.Machine.execShiftOut b s
  | .wDig1 p => Sys2Proof.Machine.execWDig1 p s
  | .wDig2 p => Sys2Proof.Machine.execWDig2 p s
  | .wDig3 p => Sys2Proof.Machine.execWDig3 p s
  | .wDig4 p => Sys2Proof.Machine.execWDig4 p s
  | .wDig5 p => Sys2Proof.Machine.execWDig5 p s
  | .wDig6 p => Sys2Proof.Machine.execWDig6 p s
  | .wDig7 p => Sys2Proof.Machine.execWDig7 p s
  | .wDig8 p => Sys2Proof.Machine.execWDig8 p s
  | .wDecode d => Sys2Proof.Machine.execWDecode d s
  | .wIntensity d => Sys2Proof.Machine.execWIntensity d s
  | .wScanLim d => Sys2Proof.Machine.execWScanLim d s
  | .wShutdown d => Sys2Proof.Machine.execWShutdown d s
  | .wDispTest d => Sys2Proof.Machine.execWDispTest d s

end Sys2Proof.Machine
end

