-- ==== Sys2Proof/Machine/Fetch.lean ====
section
/-! DEFINITION. What a step takes up (R127, R148, R67, R160): a word to run, the reset input, or nothing. -/

namespace Sys2Proof.Machine

/-- What a step finds, with the state from which the taken input is gone. -/
inductive Fetched where
  | word (w : InstrWord) (rest : State)
  | reset (rest : State)
  | nothing (rest : State)
  deriving DecidableEq, Repr

/-- The word a direct call of a primitive presents. -/
def Primitive.word : Primitive → InstrWord
  | .wrreg w => .call w
  | .frame w => .frame w
  | .shiftOut b => .byte b

/-- The host's next input. The ENC port and the reset input serve at any time (R67, R160); a command only when busy = 0,
until then the host keeps presenting it (R148). -/
def State.fetchHost (s : State) : Fetched :=
  match s.host with
  | [] => .nothing s
  | .cmd w txt :: rest => if s.busy then .nothing s else .word (.cmd w txt) { s with host := rest }
  | .enc w :: rest => .word (.enc w) { s with host := rest }
  | .rst :: rest => .reset { s with host := rest }
  | .pause :: rest => .nothing { s with host := rest }

/-- The fetch. A direct call of a primitive goes first when the sequencer is free (log 15). -/
def State.fetch (s : State) : Fetched :=
  if s.busy then s.fetchHost
  else
    match s.prim with
    | some p => .word p.word { s with prim := none }
    | none => s.fetchHost

/-- A word put where the next step fetches it, with nothing before it; and the sequencer free, where the fetch needs that. -/
def State.present (s : State) (w : InstrWord) : State :=
  match w with
  | .cmd word txt => { s with busy := false, phase := .idle, prim := none, host := .cmd word txt :: s.host }
  | .enc word => { s with prim := none, host := .enc word :: s.host }
  | .call word => { s with busy := false, phase := .idle, prim := some (.wrreg word) }
  | .frame word => { s with busy := false, phase := .idle, prim := some (.frame word) }
  | .byte b => { s with busy := false, phase := .idle, prim := some (.shiftOut b) }

end Sys2Proof.Machine
end

