-- ==== Sys2Proof/Machine/Step.lean ====
section
/-! DEFINITION. One step: a fetched word is decoded and run, the reset input resets, and otherwise the sequencer moves (R127). -/

namespace Sys2Proof.Machine

/-- A fetched word decoded under the state's configuration and run; a word that is no command is refused by name (R70). -/
def State.run (w : InstrWord) (s : State) : Host.Outcome State Fault Refusal :=
  match decode s.cfg w with
  | .ok i => exec i s
  | .error (.notACommand op) => .refused (.notACommand op)

def step (s : State) : Host.Outcome State Fault Refusal :=
  match s.fetch with
  | .word w rest => rest.run w
  | .reset rest => .next rest.restart
  | .nothing rest => rest.tick

/-- `s` with the instruction of a table row's word where the next step fetches it (log 27): at the command port, at the ENC port
or in the slot of the internal primitives, by the row's format. -/
def State.withFetchWord (s : State) (nbits w : Nat) : State :=
  match tableWord nbits w with
  | none => s
  | some iw => s.present iw

end Sys2Proof.Machine
end

