-- ==== Sys2Proof/Machine/Sink.lean ====
section
/-! DEFINITION. What the sink's registers hold (R19 to R22, U4), as an observer may state it. The block reads none of it (R27). -/

namespace Sys2Proof.Machine

/-- What the sink's register a holds after a history given newest first: the data of its last frame (R28), unless a frame to an
address the document does not name came after, whose effect on the registers is any value (U4; log 19). -/
def contentAfter (cfg : Cfg) (a : Byte) : List Frame → Byte
  | [] => Config.sinkPowerUp a
  | f :: older =>
    if cfg.named f.opcode then (if f.opcode = a then f.data else contentAfter cfg a older)
    else Config.strayFrame older.length f.opcode f.data a

/-- The content of the sink's register a. -/
def State.content (s : State) (a : Byte) : Byte := contentAfter s.cfg a s.frames.reverse

/-- The digit register of position d, R20. -/
def State.digit (s : State) (d : Byte) : Byte := s.content (addr d)

/-- The five control registers, R21. -/
def State.scanLimit (s : State) : Byte := s.content s.cfg.opScanLimit
def State.decodeMode (s : State) : Byte := s.content s.cfg.opDecodeMode
def State.shutdown (s : State) : Byte := s.content s.cfg.opShutdown
def State.displayTest (s : State) : Byte := s.content s.cfg.opDisplayTest
def State.intensity (s : State) : Byte := s.content s.cfg.opIntensity

/-- The effective brightness, bits 3:0 of INTENSITY (R22, C3). -/
def State.brightness (s : State) : BitVec 4 := s.intensity.extractLsb' 0 4

end Sys2Proof.Machine
end

