-- ==== Sys2Proof/Safety.lean ====
section
/-! DEFINITION. The terms claims are stated in: runs of steps, the state between commands (R165), the framing of the wires
(R54, R128, R134), the observer of WIRE (R25), and what the block can see (R27). -/

namespace Sys2Proof.Machine

/-- `k` steps, ending at the first fault or refusal. -/
def State.steps (s : State) (k : Nat) : Outcome :=
  match k with
  | 0 => .next s
  | k + 1 =>
    match step s with
    | .next t => t.steps k
    | .fault r => .fault r
    | .refused r => .refused r

/-- R165, R128: no command runs, CS = 1 and CLK = 0. -/
def State.ready (s : State) : Bool := !s.busy && decide (s.phase = .idle) && s.cs && !s.clk

/-- The host presents nothing, or a command that has to wait while the block is busy (R148): the sequencer is left to itself. -/
def State.hostWaits (s : State) : Bool :=
  match s.host with
  | [] => true
  | .cmd _ _ :: _ => true
  | .enc _ :: _ => false
  | .rst :: _ => false
  | .pause :: _ => false

/-- The five host commands (R9). -/
def isCommand : Instr → Bool
  | .init => true
  | .setBright _ => true
  | .clear => true
  | .dispChar _ _ _ => true
  | .dispText _ _ => true
  | .encode _ _ => false
  | .wrreg _ _ => false
  | .shiftOut _ => false
  | .wDig1 _ => false
  | .wDig2 _ => false
  | .wDig3 _ => false
  | .wDig4 _ => false
  | .wDig5 _ => false
  | .wDig6 _ => false
  | .wDig7 _ => false
  | .wDig8 _ => false
  | .wDecode _ => false
  | .wIntensity _ => false
  | .wScanLim _ => false
  | .wShutdown _ => false
  | .wDispTest _ => false

/-- From the given levels of CS and CLK and the receiver's count, the assignment list raises CS only after 16 sampled bits (R134)
and ends with CS = 1 and CLK = 0 (R128). -/
def drainsCleanly (cs clk : Bool) (n : Nat) (l : List Assign) : Bool :=
  match l with
  | [] => cs && !clk
  | ⟨.data, _⟩ :: rest => drainsCleanly cs clk n rest
  | ⟨.clk, v⟩ :: rest => drainsCleanly cs v (if !clk && v && !cs then n + 1 else n) rest
  | ⟨.cs, v⟩ :: rest =>
    if cs && !v then drainsCleanly v clk 0 rest
    else if !cs && v then n == 16 && drainsCleanly v clk n rest
    else drainsCleanly v clk n rest

/-- R128 and what makes it hold: busy exactly while a list runs; idle with CS = 1 and CLK = 0; running a list that drains cleanly. -/
def State.Framed (s : State) : Prop :=
  match s.phase with
  | .idle => s.busy = false ∧ s.cs = true ∧ s.clk = false
  | .running _ l => s.busy = true ∧ drainsCleanly s.cs s.clk s.count l = true

/-- The bracket rule of R54, read over a list of assignments: outside a bracket no CLK or DATA assignment; inside exactly 16
`(CLK,1)` before the `(CS,1)` that closes it. `none` is outside, `some k` is inside after k `(CLK,1)`. -/
def bracketed (inside : Option Nat) (l : List Assign) : Bool :=
  match inside, l with
  | none, [] => true
  | some _, [] => false
  | none, ⟨.cs, v⟩ :: rest => bracketed (if v then none else some 0) rest
  | none, ⟨.clk, _⟩ :: _ => false
  | none, ⟨.data, _⟩ :: _ => false
  | some k, ⟨.cs, v⟩ :: rest => v && k == 16 && bracketed none rest
  | some k, ⟨.clk, v⟩ :: rest => bracketed (some (if v then k + 1 else k)) rest
  | some k, ⟨.data, _⟩ :: rest => bracketed (some k) rest

/-- WIRE with the assignments still to come obeys the bracket rule, and no primitive is called directly. -/
def State.WireBracketed (s : State) : Prop :=
  s.prim = none ∧
  match s.phase with
  | .idle => s.busy = false ∧ bracketed none s.wire = true
  | .running _ l => s.busy = true ∧ bracketed none (s.wire ++ l) = true

/-- What a reader of the three wires alone knows: the line levels, SR, n and the frames committed (R25, R131 to R133). -/
structure Observer where
  cs : Bool
  clk : Bool
  data : Bool
  sr : BitVec 16
  count : Nat
  frames : List Frame
  deriving DecidableEq, Repr

/-- The observer at reset (R30). -/
def Observer.start : Observer := ⟨true, false, false, Config.srPowerUp, Config.countPowerUp, []⟩

/-- The observer reads one assignment, by the edges of R126 and the rules R131 to R133. -/
def Observer.see (o : Observer) (a : Assign) : Observer :=
  match a.line, o.cs, o.clk, a.level with
  | .data, _, _, v => { o with data := v }
  | .clk, false, false, true =>
    { o with clk := true, sr := BitVec.ofNat 16 (2 * o.sr.toNat + o.data.toNat), count := o.count + 1 }
  | .clk, _, _, v => { o with clk := v }
  | .cs, true, _, false => { o with cs := false, count := 0 }
  | .cs, false, _, true =>
    { o with
      cs := true,
      frames := if o.count = 16 then
          o.frames ++ [⟨BitVec.ofNat 8 (o.sr.toNat / 256), BitVec.ofNat 8 o.sr.toNat⟩]
        else o.frames }
  | .cs, _, _, v => { o with cs := v }

/-- The part of the state the observer of WIRE knows. -/
def State.observer (s : State) : Observer := ⟨s.cs, s.clk, s.data, s.sr, s.count, s.frames⟩

/-- The sink's state and the lines are what WIRE alone makes them. -/
def State.WireTellsTheSink (s : State) : Prop := s.observer = s.wire.foldl Observer.see Observer.start

/-- The data byte of the last frame to an address, R28. -/
def lastData (a : Byte) (fs : List Frame) : Option Byte := (fs.reverse.find? fun f => f.opcode == a).map Frame.data

/-- R28: the written record of every register is the data of the last frame to it, and REG is that or its reset value. -/
def State.RecordsFrames (s : State) : Prop :=
  ∀ a : Byte, Memory.read s.sink a.toNat = lastData a s.frames ∧
    s.reg a = (lastData a s.frames).getD (Config.sinkPowerUp a)

/-- R67: the ENC port's output is ENCODE of its input. -/
def State.EncPortAgrees (s : State) : Prop :=
  s.encOut = encodeChar s.cfg (s.encIn.extractLsb' 0 8) (s.encIn.getLsbD 8)

/-- R18, R62: TB has at most 16 bytes, PL at most 8 pairs, none of them DOT. -/
def State.StorageBounded (s : State) : Prop :=
  s.tb.length ≤ 16 ∧ s.pl.length ≤ 8 ∧ ∀ p ∈ s.pl, p.ch ≠ dot

/-- R146: "With CFG.OOR_GUARD false, `err` is constantly 0". -/
def State.ErrNeedsGuard (s : State) : Prop := s.err = true → s.cfg.oorGuard = true

/-- What the block and the host can see of a state: all but the sink and the histories (R25, R27). -/
def State.blockView (s : State) : State := { s with sink := [], sr := 0, count := 0, frames := [], wire := [] }

end Sys2Proof.Machine
end

