-- ==== Sys2Proof/Certificates/Slice0/Obligations.lean ====
section
/-! DEFINITION. The statements for the provers. Each docstring names the rule of spec/ it formalises. -/

open Sys2Proof Sys2Proof.Machine

/-! ### Encoding and the step -/

/-- R65, R67, R63, R64: no bit of an encoding is dropped, for every instruction under every configuration whose control opcodes are
distinct and outside 1..8 (R7). -/
def Obligations.DecodeOfEncodeIsTheInstruction : Prop :=
  ∀ (cfg : Cfg) (i : Instr), cfg.opsDistinct = true → i.wf = true → decode cfg (encode cfg i) = .ok i

/-- R66: whatever the words, what the decoder gives is well formed. -/
def Obligations.DecodedInstructionIsWellFormed : Prop :=
  ∀ (cfg : Cfg) (w : InstrWord) (i : Instr), decode cfg w = .ok i → i.wf = true

/-- R65, R67, R63, R64: words of 95_test_vectors.md (C-1, C-7, C-3, D-C2, T-6, W-1 and others) decode to what they stand for. The last
clause names the number of OP_INTENSITY at reset, 0x0A, which R64 marks as general knowledge and the model takes (log 3,
PRESUMED; unsafe for such a claim); the others hold under every configuration. -/
def Obligations.SampleWordsDecode : Prop :=
  ∀ (cfg : Cfg) (txt : List Byte),
    decode cfg (.cmd 0x0010000 txt) = .ok .init ∧
    decode cfg (.cmd 0x002001F txt) = .ok (.setBright 0x1F) ∧
    decode cfg (.cmd 0x0030000 txt) = .ok .clear ∧
    decode cfg (.cmd 0x1040131 txt) = .ok (.dispChar 1 0x31 true) ∧
    decode cfg (.cmd 0x1050300 (0x31 :: 0x2E :: 0x35 :: txt)) = .ok (.dispText [0x31, 0x2E, 0x35] true) ∧
    decode cfg (.enc 0x131) = .ok (.encode 0x31 true) ∧
    decode cfg (.call 0x01B0) = .ok (.wrreg 0x01 0xB0) ∧
    decode cfg (.byte 0xB0) = .ok (.shiftOut 0xB0) ∧
    decode cfg (.frame 0x0830) = .ok (.wDig8 0x30) ∧
    decode resetCfg (.frame 0x0A03) = .ok (.wIntensity 0x03)

/-- A step runs the decoded instruction, at the state without the input that was taken: a command when busy = 0 (R127), an ENC
input at any time (R67). The model's choices here: that an ENC input takes a step of its own (log 22), that a primitive can be
called directly, and that such a call goes before the host (log 15). -/
def Obligations.StepRunsTheDecodedInstruction : Prop :=
  ∀ (s : State) (i : Instr),
    (∀ w txt rest, s.busy = false → s.prim = none → s.host = .cmd w txt :: rest → decode s.cfg (.cmd w txt) = .ok i →
      step s = exec i { s with host := rest }) ∧
    (∀ w rest, (s.busy = true ∨ s.prim = none) → s.host = .enc w :: rest → decode s.cfg (.enc w) = .ok i →
      step s = exec i { s with host := rest }) ∧
    (∀ p, s.busy = false → s.prim = some p → decode s.cfg p.word = .ok i → step s = exec i { s with prim := none })

/-- A table row's word, placed by `withFetchWord`, is what the next step runs (log 16, 27). -/
def Obligations.PlacedWordIsRunByTheNextStep : Prop :=
  ∀ (s : State) (nbits w : Nat) (iw : InstrWord) (i : Instr),
    tableWord nbits w = some iw → decode s.cfg iw = .ok i →
    (∀ v, iw = .enc v → step (s.withFetchWord nbits w) = exec i { s with prim := none }) ∧
    ((∀ v, iw ≠ .enc v) →
      step (s.withFetchWord nbits w) = exec i { s with busy := false, phase := .idle, prim := none })

/-- R70: codes other than 0x01 to 0x05 are refused by name, and fields a command does not use are ignored. That the refusal ends the
run is the spec's decision D20 as the model takes it (log 24, DEDUCED). -/
def Obligations.OtherCommandCodesAreRefused : Prop :=
  (∀ (s : State) (w : BitVec 25) (txt : List Byte) (rest : List HostInput),
    s.busy = false → s.prim = none → s.host = .cmd w txt :: rest →
    (cmdOp w).toNat = 0 ∨ 5 < (cmdOp w).toNat → step s = .refused (.notACommand (cmdOp w))) ∧
  (∀ (cfg : Cfg) (txt txt' : List Byte) (f : Bool) (a b : Byte),
    decode cfg (.cmd (cmdWord f 1 a b) txt) = .ok .init ∧
    decode cfg (.cmd (cmdWord f 2 a b) txt) = .ok (.setBright b) ∧
    decode cfg (.cmd (cmdWord f 3 a b) txt) = .ok .clear ∧
    decode cfg (.cmd (cmdWord f 4 a b) txt) = .ok (.dispChar a b f) ∧
    decode cfg (.cmd (cmdWord f 5 a b) txt) = decode cfg (.cmd (cmdWord f 5 a 0) txt) ∧
    decode cfg (.cmd (cmdWord f 4 a b) txt) = decode cfg (.cmd (cmdWord f 4 a b) txt'))

/-! ### ENCODE -/

/-- R67, R85, R86: at its port, busy or not, ENCODE completes and gives ENCODE of the operands, which is the pattern of the
direct-mapped form (R86, marked as derived); it writes no other state (R85). That serving the port is a step that writes its
output and does not move the sequencer is the model's choice (log 22). -/
def Obligations.EncodePortGivesTheDirectMappedPattern : Prop :=
  ∀ (c : Byte) (dp : Bool) (s : State),
    encodeRom s.cfg c dp = encodeChar s.cfg c dp ∧
    exec (.encode c dp) s = .next { s with encIn := BitVec.ofBool dp ++ c, encOut := encodeRom s.cfg c dp }

/-- R82: under a font without a code 0 the lookup is the first match in order; with no code repeated, first match and the match
coincide. That code 0 never matches, whatever the table, is the spec's decision D6 (log 31). -/
def Obligations.LookupIsTheFirstMatch : Prop :=
  (∀ (cfg : Cfg) (k : Byte), cfg.fontHasNoZero = true →
    lookup cfg.font k = (cfg.font.find? fun e => e.code == k).map FontEntry.pattern) ∧
  (∀ font : List FontEntry, lookup font 0 = none) ∧
  (∀ (cfg : Cfg) (e : FontEntry), cfg.fontHasNoZero = true → cfg.fontHasNoRepeat = true → e ∈ cfg.font →
    lookup cfg.font e.code = some e.pattern)

/-- R87: the document's four testable properties of ENCODE, "in the table" decided after the remap (R83). -/
def Obligations.EncodeHasTheFourTestableProperties : Prop :=
  ∀ (cfg : Cfg) (c : Byte) (dp : Bool),
    (lookup cfg.font (if 35 ≤ c ∧ c ≤ 44 then c + 13 else c) = none → encodeChar cfg c dp = 0x00) ∧
    (∀ p, ¬(35 ≤ c ∧ c ≤ 44) → lookup cfg.font c = some p → encodeChar cfg c false = p) ∧
    (∀ p, lookup cfg.font (if 35 ≤ c ∧ c ≤ 44 then c + 13 else c) = some p → encodeChar cfg c true = p ||| 0x80) ∧
    (35 ≤ c ∧ c ≤ 44 → encodeChar cfg c false = encodeChar cfg c true ∧ encodeChar cfg c true = encodeChar cfg (c + 13) true)

/-- R69: a font entry whose code is in 35..44 is unreachable, so that leaving such entries out changes no pattern. -/
def Obligations.EntriesInTheRemapRangeAreUnreachable : Prop :=
  ∀ (cfg : Cfg) (c : Byte) (dp : Bool),
    encodeChar { cfg with font := cfg.font.filter fun e => !(35 ≤ e.code && e.code ≤ 44) } c dp = encodeChar cfg c dp

/-- 95_test_vectors.md E-S6, R88: bits 6:0 of the pattern never depend on the flag, and ENCODE never clears bit 7. -/
def Obligations.SegmentBitsIgnoreTheFlag : Prop :=
  ∀ (cfg : Cfg) (c : Byte), encodeChar cfg c true &&& 0x7F = encodeChar cfg c false &&& 0x7F ∧
    ((encodeChar cfg c false).getLsbD 7 = true → encodeChar cfg c true = encodeChar cfg c false)

/-! ### The wires and the receiver -/

/-- R125: the 50 assignments of a frame, written out by position (counted from 0 here). The three assignments of a bit are the
choice R124 marks as the spec's own, D16 (log 17, PRESUMED; unsafe for a claim about WIRE on a real board). -/
def Obligations.FrameIsFiftyAssignments : Prop :=
  ∀ f : Frame, (framePins f).length = 50 ∧ (framePins f)[0]? = some ⟨.cs, false⟩ ∧
    (∀ j, j < 16 →
      (framePins f)[3 * j + 1]? = some ⟨.data, f.word.getLsbD (15 - j)⟩ ∧
      (framePins f)[3 * j + 2]? = some ⟨.clk, true⟩ ∧
      (framePins f)[3 * j + 3]? = some ⟨.clk, false⟩) ∧
    (framePins f)[49]? = some ⟨.cs, true⟩

/-- R126, R131, R132, R133: what every assignment, edge or not, does in the receiver and on the lines; the one left, a rising CS with
n other than 16, is `RaisingChipSelectEarlyFaults`. The receiver is the spec's own decision D18 (log 18, PRESUMED). -/
def Obligations.ReceiverFollowsTheEdges : Prop :=
  ∀ s : State,
    (s.cs = true → s.pin ⟨.cs, false⟩ = .next { s with cs := false, count := 0, wire := s.wire ++ [⟨.cs, false⟩] }) ∧
    (s.clk = false → s.cs = false → s.pin ⟨.clk, true⟩ = .next { s with
      clk := true, sr := BitVec.ofNat 16 (2 * s.sr.toNat + s.data.toNat), count := s.count + 1,
      wire := s.wire ++ [⟨.clk, true⟩] }) ∧
    (s.cs = false → s.pin ⟨.cs, false⟩ = .next { s with wire := s.wire ++ [⟨.cs, false⟩] }) ∧
    (s.clk = true → s.cs = false → s.pin ⟨.clk, true⟩ = .next { s with wire := s.wire ++ [⟨.clk, true⟩] }) ∧
    (s.cs = true → ∀ v, s.pin ⟨.clk, v⟩ = .next { s with clk := v, wire := s.wire ++ [⟨.clk, v⟩] }) ∧
    (s.pin ⟨.clk, false⟩ = .next { s with clk := false, wire := s.wire ++ [⟨.clk, false⟩] }) ∧
    (∀ v, s.pin ⟨.data, v⟩ = .next { s with data := v, wire := s.wire ++ [⟨.data, v⟩] }) ∧
    (s.cs = false → s.count = 16 → s.pin ⟨.cs, true⟩ = .next { s with
      cs := true, wire := s.wire ++ [⟨.cs, true⟩],
      frames := s.frames ++ [⟨BitVec.ofNat 8 (s.sr.toNat / 256), BitVec.ofNat 8 s.sr.toNat⟩],
      sink := Memory.write s.sink (s.sr.toNat / 256) (BitVec.ofNat 8 s.sr.toNat) }) ∧
    (s.cs = true → s.pin ⟨.cs, true⟩ = .next { s with wire := s.wire ++ [⟨.cs, true⟩] })

/-- R134: a rising edge of CS with n other than 16 is the fault MalformedFrame. The receiver is D18 (log 18, PRESUMED). -/
def Obligations.RaisingChipSelectEarlyFaults : Prop :=
  ∀ s : State, s.cs = false → s.count ≠ 16 → s.pin ⟨.cs, true⟩ = .fault (.malformedFrame s.count)

/-- R135, which the spec marks as derived: from CS = 1 and CLK = 0 the 50 assignments of a frame are, on the lines and at the sink,
exactly the one frame; and so for the list of a whole command. It rests on D16 (log 17) and D18 (log 18), both PRESUMED. -/
def Obligations.WiresAndFramesAgree : Prop :=
  ∀ (s : State), s.cs = true → s.clk = false →
    (∀ f : Frame, s.pins (framePins f) = .next { s with
      frames := s.frames ++ [f], sink := Memory.write s.sink f.opcode.toNat f.data, wire := s.wire ++ framePins f,
      data := f.data.getLsbD 0, sr := f.word, count := 16 }) ∧
    (∀ fs : List Frame, s.pins (pinsOf fs) = .next (s.emits fs))

/-- R124, R132 (vector W-5): inside a frame SHIFTOUT shifts its byte into SR, bit 7 first, and counts 8 bits; outside, the
receiver is not moved. It rests on D16 (log 17) and D18 (log 18), both PRESUMED. -/
def Obligations.ShiftOutMovesEightBits : Prop :=
  ∀ (s : State) (b : Byte), s.clk = false →
    (s.cs = false → s.pins (shiftPins b) = .next { s with
      data := b.getLsbD 0, sr := BitVec.ofNat 16 (256 * s.sr.toNat + b.toNat), count := s.count + 8,
      wire := s.wire ++ shiftPins b }) ∧
    (s.cs = true → s.pins (shiftPins b) = .next { s with data := b.getLsbD 0, wire := s.wire ++ shiftPins b })

/-- R54: the assignment lists of every command obey the bracket rule. -/
def Obligations.CommandListsAreBracketed : Prop :=
  (∀ fs : List Frame, bracketed none (pinsOf fs) = true) ∧ (∀ cfg : Cfg, bracketed none (initPins cfg) = true)

/-! ### Each instruction completes

After the pin assignments one more step ends the command: the model's reading of R127 (log 13, DEDUCED), counted in each `steps`. -/

/-- R90, R127, R15: INIT from between commands: acceptance, then 651 assignments leave `(CS,1)` and the 13 frames in this order, which
is the spec's decision D12 (log 29, unsafe for claims about order); life stays up to the 650th and is Active from the 651st, which
commits the last frame (R15), and the 652nd step is the end (log 13). Its word is op = 0x01, whatever f, a and b. -/
def Obligations.InitRunsToItsEnd : Prop :=
  (∀ (cfg : Cfg) (f : Bool) (a b : Byte) (txt : List Byte), decode cfg (.cmd (cmdWord f 1 a b) txt) = .ok .init) ∧
  ∀ s : State, s.ready = true → s.hostWaits = true →
    ∃ t u, exec .init s = .next t ∧ u = { State.emits
      [⟨s.cfg.opScanLimit, 0x07⟩, ⟨s.cfg.opDecodeMode, 0x00⟩, ⟨s.cfg.opShutdown, s.cfg.shutdownExit⟩,
       ⟨s.cfg.opDisplayTest, s.cfg.testExit⟩, ⟨1, 0⟩, ⟨2, 0⟩, ⟨3, 0⟩, ⟨4, 0⟩, ⟨5, 0⟩, ⟨6, 0⟩, ⟨7, 0⟩, ⟨8, 0⟩,
       ⟨s.cfg.opIntensity, s.cfg.brightDefault⟩]
      { s with err := false, wire := s.wire ++ [⟨.cs, true⟩] } with life := .active } ∧
      (∀ k v, k ≤ 650 → t.steps k = .next v → v.life = s.life) ∧
      t.steps 651 = .next { u with busy := true, phase := .running true [] } ∧ t.steps 652 = .next u

/-- R91: SETBRIGHT sends the level unmasked, and nothing else; the 51st step is the end (log 13). -/
def Obligations.SetBrightRunsToItsEnd : Prop :=
  ∀ (level : Byte) (s : State), s.ready = true → s.hostWaits = true →
    ∃ t, exec (.setBright level) s = .next t ∧
      t.steps 51 = .next (State.emits [⟨s.cfg.opIntensity, level⟩] { s with err := false })

/-- R92: CLEAR writes 0x00 to the registers 1 to 8, nothing else. The ascending order is "this spec's choice", D13 (log 29); the
401st step is the end (log 13). Its word is op = 0x03, whatever f, a and b. -/
def Obligations.ClearRunsToItsEnd : Prop :=
  (∀ (cfg : Cfg) (f : Bool) (a b : Byte) (txt : List Byte), decode cfg (.cmd (cmdWord f 3 a b) txt) = .ok .clear) ∧
  ∀ s : State, s.ready = true → s.hostWaits = true →
    ∃ t, exec .clear s = .next t ∧ t.steps 401 = .next (State.emits
      [⟨1, 0⟩, ⟨2, 0⟩, ⟨3, 0⟩, ⟨4, 0⟩, ⟨5, 0⟩, ⟨6, 0⟩, ⟨7, 0⟩, ⟨8, 0⟩] { s with err := false })

/-- R100, R101, R103: DISPCHAR, with the guard off or the index in 0..7, sends the one frame to `(d + 1) mod 256`; the 51st step is
the end (log 13). -/
def Obligations.DispCharRunsToItsEnd : Prop :=
  ∀ (d c : Byte) (dp : Bool) (s : State), s.ready = true → s.hostWaits = true → (s.cfg.oorGuard = true → d ≤ 7) →
    ∃ t, exec (.dispChar d c dp) s = .next t ∧ t.steps 51 = .next (State.emits
      [⟨BitVec.ofNat 8 ((d.toNat + 1) % 256), encodeChar s.cfg c dp⟩] { s with err := false })

/-- R104, R146: with the guard on and d > 7 nothing is sent, err, err_info and the code 1 (D25) report, the command ends at once; for
d <= 7 the guard changes nothing; and the next command accepted without such a refusal lowers err and the code. The model's
readings: busy does not rise (log 14), and err_info stays at a later command (log 21), both DEDUCED. -/
def Obligations.GuardRefusesAnIndexAboveSeven : Prop :=
  (∀ (d c : Byte) (dp : Bool) (s : State), s.busy = false → s.cfg.oorGuard = true → 7 < d →
    ∃ t, exec (.dispChar d c dp) s = .next t ∧ t = { s with err := true, errInfo := d } ∧ t.errCode = 1) ∧
  (∀ (d c : Byte) (dp : Bool) (cfg : Cfg), d ≤ 7 →
    charFrames { cfg with oorGuard := true } d c dp = charFrames { cfg with oorGuard := false } d c dp) ∧
  (∀ (i : Instr) (s : State), s.busy = false → isCommand i = true →
    (∀ d c dp, i = .dispChar d c dp → s.cfg.oorGuard = true → d ≤ 7) →
    ∃ t, exec i s = .next t ∧ t.err = false ∧ t.errCode = 0 ∧ t.errInfo = s.errInfo)

/-- R115: DISPTEXT with at least one pair after the clamp: TB, PL, and one frame a pair, pair x of y at digit y - x - 1 or 7 - x, by
ascending x, the spec's decision D14 (log 29); the last step is the end (log 13). -/
def Obligations.DispTextRunsToItsEnd : Prop :=
  ∀ (text : List Byte) (justify : Bool) (pl : List Pair) (s : State), s.ready = true → s.hostWaits = true →
    pl = (fold (text.take 16)).take 8 → pl ≠ [] →
    ∃ t, exec (.dispText text justify) s = .next t ∧ t.steps (50 * pl.length + 1) = .next (State.emits
      (pl.zipIdx.map fun (p, x) =>
        ⟨BitVec.ofNat 8 ((if justify then 7 - x else pl.length - x - 1) + 1), encodeChar s.cfg p.ch p.dp⟩)
      { s with err := false, tb := text.take 16, pl := pl })

/-- R127, R118: a text that leaves no pair (empty, or full stops only in its first 16 characters) ends at once with no
assignment. That busy does not rise is the model's reading (log 14, DEDUCED); 46 is the full stop in ASCII (log 28, PRESUMED). -/
def Obligations.TextWithoutPairsEndsAtOnce : Prop :=
  ∀ (text : List Byte) (justify : Bool) (s : State), s.ready = true → (∀ c ∈ text.take 16, c = 46) →
    exec (.dispText text justify) s = .next { s with err := false, tb := text.take 16, pl := [] }

/-- R121: any frame goes out. The direct call of WRREG, which R120 has called by the commands only, is the model's choice (log 15);
the 51st step is the end (log 13). -/
def Obligations.WrregRunsToItsEnd : Prop :=
  ∀ (op data : Byte) (s : State), s.ready = true → s.hostWaits = true →
    ∃ t, exec (.wrreg op data) s = .next t ∧ t.steps 51 = .next (State.emits [⟨op, data⟩] s)

/-- R124, R132: SHIFTOUT makes its 24 assignments (log 17, PRESUMED); CS being 1, the receiver is not moved. The direct call is the
model's choice (log 15); the 25th step is the end (log 13). -/
def Obligations.ShiftOutRunsToItsEnd : Prop :=
  ∀ (b : Byte) (s : State), s.ready = true → s.hostWaits = true →
    ∃ t, exec (.shiftOut b) s = .next t ∧
      t.steps 25 = .next { s with data := b.getLsbD 0, wire := s.wire ++ shiftPins b }

/-- R64, R133: the frames W.DIG1 to W.DIG8 reach the digit registers 1 to 8. That such a frame can be sent by itself, not by one of
the commands R64 names, is the model's choice (log 15); the 51st step is the end (log 13). -/
def Obligations.DigitFramesRunToTheirEnd : Prop :=
  ∀ (p : Byte) (s : State), s.ready = true → s.hostWaits = true →
    ∀ e ∈ [(Instr.wDig1 p, (1 : Byte)), (.wDig2 p, 2), (.wDig3 p, 3), (.wDig4 p, 4), (.wDig5 p, 5), (.wDig6 p, 6),
      (.wDig7 p, 7), (.wDig8 p, 8)],
    ∃ t, exec e.1 s = .next t ∧ t.steps 51 = .next (State.emits [⟨e.2, p⟩] s)

/-- R64, R133: the frames to the five control registers reach them, each at its CFG opcode. That such a frame can be sent by itself,
with any data byte, is the model's choice (log 15); the 51st step is the end (log 13). -/
def Obligations.ControlFramesRunToTheirEnd : Prop :=
  ∀ (d : Byte) (s : State), s.ready = true → s.hostWaits = true →
    ∀ e ∈ [(Instr.wDecode d, s.cfg.opDecodeMode), (.wIntensity d, s.cfg.opIntensity), (.wScanLim d, s.cfg.opScanLimit),
      (.wShutdown d, s.cfg.opShutdown), (.wDispTest d, s.cfg.opDisplayTest)],
    ∃ t, exec e.1 s = .next t ∧ t.steps 51 = .next (State.emits [⟨e.2, d⟩] s)

/-- R47, R52: while a list of frames runs, they are committed one by one, in order: after 50 k steps exactly the first k. Where the
list is INIT's, life is Active from its last commit on, and not before (R15). -/
def Obligations.FramesOfACommandCommitOneByOne : Prop :=
  ∀ (fs : List Frame) (k : Nat) (isInit : Bool) (s : State), k ≤ fs.length → s.busy = true →
    s.phase = .running isInit (pinsOf fs) → s.cs = true → s.clk = false → s.hostWaits = true →
    s.steps (50 * k) = .next { State.emits (fs.take k) s with
      phase := .running isInit (pinsOf (fs.drop k))
      life := if isInit = true ∧ k ≠ 0 ∧ k = fs.length then .active else s.life }

/-- R148, R55: while busy no command is accepted, and a presented command only waits for the sequencer. R148 has no step for such a
command; that exec answers the state as it is, is the model's choice (log 25), and so are the direct calls it extends to (log
15). -/
def Obligations.NothingIsAcceptedWhileBusy : Prop :=
  ∀ s : State, s.busy = true →
    (∀ i : Instr, (∀ c dp, i ≠ .encode c dp) → exec i s = .next s) ∧
    (∀ w txt rest, s.host = .cmd w txt :: rest → step s = s.tick ∧ ∀ t, step s = .next t → t.host = s.host)

/-! ### Frames: what is left unchanged -/

/-- The frame of exec for every instruction: acceptance (R127) moves no line, sends nothing and commits nothing; TB and PL change
only for DISPTEXT, err only for a host command, err_info only for DISPCHAR, the ENC port only for ENCODE, which in turn leaves
busy and phase. That err stays at ENCODE and at a direct call, and err_info at all but DISPCHAR, is the model's reading of R146
(log 21, DEDUCED; unsafe for a claim about err_info while err is 0); its choices are the direct calls (log 15) and that exec of a
busy state answers that state (log 25). -/
def Obligations.ExecLeavesTheRestUnchanged : Prop :=
  ∀ (i : Instr) (s t : State), exec i s = .next t →
    t.cfg = s.cfg ∧ t.life = s.life ∧ t.cs = s.cs ∧ t.clk = s.clk ∧ t.data = s.data ∧ t.sink = s.sink ∧ t.sr = s.sr ∧
    t.count = s.count ∧ t.frames = s.frames ∧ t.wire = s.wire ∧ t.host = s.host ∧ t.prim = s.prim ∧
    ((∀ text j, i ≠ .dispText text j) → t.tb = s.tb ∧ t.pl = s.pl) ∧
    (isCommand i = false → t.err = s.err) ∧
    ((∀ d c dp, i ≠ .dispChar d c dp) → t.errInfo = s.errInfo) ∧
    ((∀ c dp, i ≠ .encode c dp) → t.encIn = s.encIn ∧ t.encOut = s.encOut) ∧
    (∀ c dp, i = .encode c dp → t.busy = s.busy ∧ t.phase = s.phase)

/-- R28, R105, R117: after a list of frames a register they do not address reads as before, and one they address holds the data of
the last frame to it. -/
def Obligations.FramesWriteOnlyTheirRegisters : Prop :=
  ∀ (fs : List Frame) (s : State) (a : Byte),
    ((∀ f ∈ fs, f.opcode ≠ a) → (State.emits fs s).reg a = s.reg a) ∧
    (∀ v, (State.emits (fs ++ [⟨a, v⟩]) s).reg a = v)

/-- R50, by row: which addresses each command writes, said of the frame lists with which the commands run (the completion statements
above); SETBRIGHT only OP_INTENSITY, DISPTEXT only 1..8 (R116), DISPCHAR in range only 1..8. -/
def Obligations.CommandsWriteOnlyTheirAddresses : Prop :=
  ∀ cfg : Cfg,
    (∀ f ∈ initFrames cfg, (1 ≤ f.opcode ∧ f.opcode ≤ 8) ∨ f.opcode ∈ cfg.controlOps) ∧
    (∀ level, brightFrames cfg level ≠ [] ∧ ∀ f ∈ brightFrames cfg level, f.opcode = cfg.opIntensity) ∧
    (∀ f ∈ clearFrames, 1 ≤ f.opcode ∧ f.opcode ≤ 8) ∧
    (∀ text justify, ∀ f ∈ textFrames cfg (layout (truncate text)) justify, 1 ≤ f.opcode ∧ f.opcode ≤ 8) ∧
    (∀ d c dp, d ≤ 7 → ∀ f ∈ charFrames cfg d c dp, 1 ≤ f.opcode ∧ f.opcode ≤ 8) ∧
    (∀ d c dp, 7 < d → ∀ f ∈ charFrames cfg d c dp, f.opcode = 0 ∨ 9 ≤ f.opcode)

/-! ### The text layout -/

/-- R111, R62: the fold: pairs are the characters that are no full stop; a character adds a pair with the flag 0; a full stop sets
the last pair's flag; a leading one is dropped; one after another changes nothing, which R111 marks as derived from "sets". The
full stop's number 46 is ASCII's (R6; log 28, PRESUMED). -/
def Obligations.FoldFoldsFullStops : Prop :=
  ∀ (tb : List Byte),
    (fold tb).map Pair.ch = tb.filter (fun c => c != 46) ∧
    (∀ c, c ≠ 46 → fold (tb ++ [c]) = fold tb ++ [⟨c, false⟩]) ∧
    (∀ c, c ≠ 46 → fold (tb ++ [c, 46]) = fold tb ++ [⟨c, true⟩]) ∧
    fold (46 :: tb) = fold tb ∧
    fold (tb ++ [46, 46]) = fold (tb ++ [46]) ∧
    (fold (truncate tb)).length ≤ 16

/-- 95_test_vectors.md section 2.4: the number of pairs is min(8, number of characters that are no full stop among the first
16). The full stop is 46 as in ASCII (log 28, PRESUMED). -/
def Obligations.PairCountIsTheClampedCharacterCount : Prop :=
  ∀ text : List Byte, (layout (truncate text)).length = min 8 ((text.take 16).countP fun c => c != 46)

/-- R113, R114, R116: the opcodes DISPTEXT sends: y down to 1 for right justification, 8 down to 9 - y for left; the guard never
fires (R116). The order is R115's ascending pair, the spec's decision D14 (log 29). -/
def Obligations.TextOpcodesDescend : Prop :=
  ∀ (cfg : Cfg) (text : List Byte) (y : Nat), y = (layout (truncate text)).length →
    (textFrames cfg (layout (truncate text)) false).map Frame.opcode = (List.range y).map (fun x => BitVec.ofNat 8 (y - x)) ∧
    (textFrames cfg (layout (truncate text)) true).map Frame.opcode = (List.range y).map (fun x => BitVec.ofNat 8 (8 - x))

/-- R114: with 8 pairs both justifications give the same assignment. -/
def Obligations.EightPairsJustifyAlike : Prop :=
  ∀ (cfg : Cfg) (pl : List Pair), pl.length = 8 → textFrames cfg pl true = textFrames cfg pl false

/-! ### What the sink holds -/

/-- R162: after INIT's frames, under a configuration with distinct control opcodes, the sink is in the state of the table. -/
def Obligations.InitConfiguresTheSink : Prop :=
  ∀ (s u : State), s.cfg.opsDistinct = true → u = State.emits (initFrames s.cfg) s →
    u.scanLimit = 0x07 ∧ u.decodeMode = 0x00 ∧ u.shutdown = s.cfg.shutdownExit ∧ u.displayTest = s.cfg.testExit ∧
    (∀ d : Byte, d ≤ 7 → u.digit d = 0x00) ∧ u.intensity = s.cfg.brightDefault

/-- R162, R21: frames to the digit registers and to INTENSITY, which is all that commands other than INIT and an out-of-range
DISPCHAR send (R50), leave SCAN_LIMIT, DECODE_MODE, SHUTDOWN and DISPLAY_TEST. -/
def Obligations.OtherCommandsKeepTheConfiguration : Prop :=
  ∀ (fs : List Frame) (s u : State), s.cfg.opsDistinct = true → u = State.emits fs s →
    (∀ f ∈ fs, (1 ≤ f.opcode ∧ f.opcode ≤ 8) ∨ f.opcode = s.cfg.opIntensity) →
    u.scanLimit = s.scanLimit ∧ u.decodeMode = s.decodeMode ∧ u.shutdown = s.shutdown ∧ u.displayTest = s.displayTest

/-- R22, R91: after the frame `SetBrightRunsToItsEnd` has SETBRIGHT send, INTENSITY holds the whole level, and the effective
brightness is its low four bits: R22's reading of "clamped" as truncation (90_conflicts.md C3). -/
def Obligations.BrightnessIsTheLowFourBits : Prop :=
  ∀ (level : Byte) (s u : State), u = State.emits [⟨s.cfg.opIntensity, level⟩] s →
    u.intensity = level ∧ u.brightness.toNat = level.toNat % 16

/-- U4, R28: where no frame of the history went to an unnamed address, what the sink holds is what FRAMES says. -/
def Obligations.ContentFollowsTheRecord : Prop :=
  ∀ (s : State) (a : Byte), s.RecordsFrames → (∀ f ∈ s.frames, s.cfg.named f.opcode = true) → s.content a = s.reg a

/-! ### Invariants of every step -/

/-- R40, R42: every step keeps the sink's register space in its canonical form, inside the 256 addresses. -/
def Obligations.StepKeepsTheSinkCanonical : Prop :=
  ∀ s t : State, Memory.wf s.sink = true → step s = .next t → Memory.wf t.sink = true

/-- R128, R129, R134: every step keeps the framing: idle with CS = 1 and CLK = 0, or running a list that drains cleanly. -/
def Obligations.StepKeepsTheFraming : Prop :=
  ∀ s t : State, s.Framed → step s = .next t → t.Framed

/-- R134, R142 (c): from a framed state no step faults, whatever the host does. The receiver is D18 (log 18, PRESUMED). -/
def Obligations.FramedStatesNeverFault : Prop :=
  ∀ (s : State) (r : Fault), s.Framed → step s ≠ .fault r

/-- R54, R122: with no primitive called directly, every step keeps WIRE, with what is still to come, in the bracket rule. -/
def Obligations.StepKeepsTheBracketRule : Prop :=
  ∀ s t : State, s.WireBracketed → step s = .next t → t.WireBracketed

/-- R25, R131 to R133: every step keeps the sink's SR, n and FRAMES and the line levels what an observer of WIRE alone computes. The
receiver is D18 (log 18, PRESUMED); that the reset input starts both anew is the model's choice (log 23). -/
def Obligations.WireAloneTellsTheSink : Prop :=
  ∀ s t : State, s.WireTellsTheSink → step s = .next t → t.WireTellsTheSink

/-- R28, which the spec marks as derived from R133: every step keeps each register's record at the data of the last frame to it. It
rests on the receiver, D18 (log 18, PRESUMED), and on the model's choices that the unspecified reset value is one free value for
each address (log 7) and that the reset input empties the record with the histories (log 23). -/
def Obligations.StepKeepsTheRecordOfFrames : Prop :=
  ∀ s t : State, s.RecordsFrames → step s = .next t → t.RecordsFrames

/-- R67: every step keeps the ENC port's output at ENCODE of its input. -/
def Obligations.StepKeepsTheEncPort : Prop :=
  ∀ s t : State, s.EncPortAgrees → step s = .next t → t.EncPortAgrees

/-- R18, R62, R110, R112: every step keeps TB within 16 bytes and PL within 8 pairs, none of them DOT. -/
def Obligations.StepKeepsTheWorkingStorage : Prop :=
  ∀ s t : State, s.StorageBounded → step s = .next t → t.StorageBounded

/-- R146: every step keeps err at 0 while the guard is off. -/
def Obligations.StepKeepsErrUnderTheGuard : Prop :=
  ∀ s t : State, s.ErrNeedsGuard → step s = .next t → t.ErrNeedsGuard

/-- R30, R160: the invariants hold at reset. What R30 leaves unspecified is a free value there (log 7 to 10). -/
def Obligations.InvariantsHoldAtReset : Prop :=
  Memory.wf State.reset.sink = true ∧ State.reset.Framed ∧ State.reset.WireBracketed ∧ State.reset.WireTellsTheSink ∧
  State.reset.RecordsFrames ∧ State.reset.EncPortAgrees ∧ State.reset.StorageBounded ∧ State.reset.ErrNeedsGuard

/-! ### Whole-machine rules -/

/-- R12, R13: no step writes FONT or any other field of CFG. -/
def Obligations.NoStepWritesTheConfiguration : Prop :=
  ∀ s t : State, step s = .next t → t.cfg = s.cfg

/-- R15, R95, R127: life becomes Active only with the last assignment of an INIT, or at its end (R127, where it is Active already in
every state a run reaches; log 13), Uninitialized only by reset, and otherwise stays. -/
def Obligations.LifeMovesOnlyByInitAndReset : Prop :=
  ∀ s t : State, step s = .next t →
    t.life = s.life ∨
    (t.life = .active ∧ s.busy = true ∧ ∃ l, s.phase = .running true l ∧ l.length ≤ 1) ∨
    (t.life = .uninitialized ∧ ∃ rest, s.host = .rst :: rest)

/-- R126, R25: but for reset, a step makes at most one assignment, changing only that line and recording it at the end of WIRE, and
commits at most one frame at the end of FRAMES. -/
def Obligations.OneAssignmentAStep : Prop :=
  ∀ s t : State, (∀ rest, s.host ≠ .rst :: rest) → step s = .next t →
    ((t.wire = s.wire ∧ t.cs = s.cs ∧ t.clk = s.clk ∧ t.data = s.data ∧ t.frames = s.frames) ∨
      ∃ a : Assign, t.wire = s.wire ++ [a] ∧ t.cs = (if a.line = .cs then a.level else s.cs) ∧
        t.clk = (if a.line = .clk then a.level else s.clk) ∧ t.data = (if a.line = .data then a.level else s.data) ∧
        (t.frames = s.frames ∨ ∃ f, t.frames = s.frames ++ [f]))

/-- R27, R25: nothing of REG, SR, n, FRAMES or WIRE comes back: two states that differ only there go on to states that differ only
there. -/
def Obligations.NothingIsReadBack : Prop :=
  ∀ s₁ s₂ t₁ t₂ : State, s₁.blockView = s₂.blockView → step s₁ = .next t₁ → step s₂ = .next t₂ →
    t₁.blockView = t₂.blockView

/-- R15, R18, R95: the block reads neither life nor the TB and PL left by an earlier command. -/
def Obligations.LifeAndOldTextAreNotRead : Prop :=
  ∀ (s t : State) (life : Life) (tb : List Byte) (pl : List Pair), step s = .next t →
    ∃ t', step { s with life := life, tb := tb, pl := pl } = .next t' ∧
      { t' with life := t.life, tb := t.tb, pl := t.pl } = t

/-- R160: the reset input puts the block at the values of R30, empties the histories and sends nothing; the configuration stands. The
model's choices: it is served at any time and the host's further inputs stand (log 23), but a direct call goes first (log 15). -/
def Obligations.ResetInputRestoresTheResetValues : Prop :=
  ∀ (s : State) (rest : List HostInput), s.host = .rst :: rest → (s.busy = true ∨ s.prim = none) →
    ∃ t, step s = .next t ∧ t.life = .uninitialized ∧ t.cs = true ∧ t.clk = false ∧ t.data = false ∧ t.busy = false ∧
      t.phase = .idle ∧ t.frames = [] ∧ t.wire = [] ∧ t.cfg = s.cfg ∧ t.host = rest

/-- R127, R31: with nothing presented a free machine stays as it is, and a busy one is moved by its sequencer alone. The model's
choices: the host's inputs are a list (log 12), and a step in which nothing happens is a next state (log 27). -/
def Obligations.NothingPresentedMovesOnlyTheSequencer : Prop :=
  ∀ s : State,
    (s.busy = false → s.prim = none → s.host = [] → step s = .next s) ∧
    (s.busy = false → s.prim = none → ∀ rest, s.host = .pause :: rest → step s = .next { s with host := rest }) ∧
    (s.busy = true → s.host = [] → step s = s.tick) ∧
    (s.busy = true → ∀ rest, s.host = .pause :: rest → step s = State.tick { s with host := rest })

/-- R30, R160: reset leaves the values of the table, which the spec marks as its decision D17. The configuration at reset is the
model's where the spec gives no number (log 2 to 6). -/
def Obligations.ResetLeavesTheStatedValues : Prop :=
  State.reset.life = .uninitialized ∧ State.reset.cs = true ∧ State.reset.clk = false ∧ State.reset.data = false ∧
  State.reset.busy = false ∧ State.reset.phase = .idle ∧ State.reset.frames = [] ∧ State.reset.wire = [] ∧
  State.reset.cfg = resetCfg

/-- R15, R133, R127: the assignment `(CS,1)` that is the last of INIT commits its last frame and makes life Active in the same step,
while busy is still 1 (R17); life is Active at the end too (log 13); and while two or more assignments are left it stays. -/
def Obligations.LifeIsActiveFromTheLastCommitOfInit : Prop :=
  ∀ s : State, s.busy = true → s.hostWaits = true →
    (s.phase = .running true [⟨.cs, true⟩] → s.cs = false → s.count = 16 →
      ∃ t, step s = .next t ∧ t.life = .active ∧ t.busy = true ∧
        t.frames = s.frames ++ [⟨BitVec.ofNat 8 (s.sr.toNat / 256), BitVec.ofNat 8 s.sr.toNat⟩]) ∧
    (s.phase = .running true [] → step s = .next { s with busy := false, phase := .idle, life := .active }) ∧
    (∀ isInit a b rest t, s.phase = .running isInit (a :: b :: rest) → step s = .next t → t.life = s.life)
end

