-- ==== Sys2Proof/Laws/Memory.lean ====
section
/-! SUPPORT. The laws of the sink's register space: read after write, the canonical form, and every operation keeping it. -/

namespace Sys2Proof.Machine

theorem Memory.read_write_same (m : List Host.Cell) (a : Nat) (v : Byte) :
    Memory.read (Memory.write m a v) a = some v := by
  induction m with
  | nil => simp [Memory.write, Memory.read]
  | cons c rest ih =>
    obtain ⟨k, w⟩ := c
    by_cases h : a < k
    · simp [Memory.write, Memory.read, h]
    · by_cases h' : a = k
      · simp [Memory.write, Memory.read, h']
      · simp [Memory.write, Memory.read, h, h', Ne.symm h', ih]

theorem Memory.read_write_other (m : List Host.Cell) {a b : Nat} (v : Byte) (hab : b ≠ a) :
    Memory.read (Memory.write m a v) b = Memory.read m b := by
  induction m with
  | nil => simp [Memory.write, Memory.read, Ne.symm hab]
  | cons c rest ih =>
    obtain ⟨k, w⟩ := c
    by_cases h : a < k
    · simp [Memory.write, Memory.read, h, Ne.symm hab]
    · by_cases h' : a = k
      · subst h'; simp [Memory.write, Memory.read, Ne.symm hab]
      · simp [Memory.write, Memory.read, h, h', ih]

theorem Memory.read_write (m : List Host.Cell) (a b : Nat) (v : Byte) :
    Memory.read (Memory.write m a v) b = if b = a then some v else Memory.read m b := by
  split
  · next h => subst h; exact Memory.read_write_same m b v
  · next h => exact Memory.read_write_other m v h

/-- The addresses of a written space are the old ones and the one written. -/
theorem Memory.mem_write (m : List Host.Cell) (a : Nat) (v : Byte) (c : Host.Cell)
    (h : c ∈ Memory.write m a v) : c.1 = a ∨ c ∈ m := by
  induction m with
  | nil => simp [Memory.write] at h; simp [h]
  | cons d rest ih =>
    obtain ⟨k, w⟩ := d
    simp only [Memory.write] at h
    split at h
    · rcases List.mem_cons.1 h with rfl | h
      · exact .inl rfl
      · exact .inr h
    · split at h
      · rcases List.mem_cons.1 h with rfl | h
        · exact .inl rfl
        · exact .inr (List.mem_cons_of_mem _ h)
      · rcases List.mem_cons.1 h with rfl | h
        · exact .inr (List.mem_cons_self ..)
        · exact (ih h).imp id (List.mem_cons_of_mem _)

theorem Memory.wf_iff (m : List Host.Cell) :
    Memory.wf m = true ↔ m.Pairwise (fun x y => x.1 < y.1) ∧ ∀ c ∈ m, c.1 < 256 := by
  simp [Memory.wf]

theorem Memory.write_pairwise (m : List Host.Cell) (a : Nat) (v : Byte)
    (h : m.Pairwise fun x y => x.1 < y.1) : (Memory.write m a v).Pairwise fun x y => x.1 < y.1 := by
  induction m with
  | nil => simp [Memory.write]
  | cons c rest ih =>
    obtain ⟨k, w⟩ := c
    obtain ⟨hk, hrest⟩ := List.pairwise_cons.1 h
    simp only [Memory.write]
    split
    · next hlt =>
      refine List.pairwise_cons.2 ⟨fun c hc => ?_, h⟩
      rcases List.mem_cons.1 hc with rfl | hc
      · exact hlt
      · exact Nat.lt_trans hlt (hk c hc)
    · split
      · next heq => exact List.pairwise_cons.2 ⟨fun c hc => heq ▸ hk c hc, hrest⟩
      · refine List.pairwise_cons.2 ⟨fun c hc => ?_, ih hrest⟩
        rcases Memory.mem_write rest a v c hc with h1 | h1
        · simp only [h1]; omega
        · exact hk c h1

/-- A write inside the register space keeps the canonical form. -/
theorem Memory.write_wf (m : List Host.Cell) (a : Nat) (v : Byte) (ha : a < 256)
    (h : Memory.wf m = true) : Memory.wf (Memory.write m a v) = true := by
  rw [Memory.wf_iff] at *
  refine ⟨Memory.write_pairwise m a v h.1, fun c hc => ?_⟩
  rcases Memory.mem_write m a v c hc with h1 | h1
  · simpa only [h1] using ha
  · exact h.2 c h1

theorem Memory.reset_wf : Memory.wf State.reset.sink = true := by
  simp [State.reset, Memory.wf]

/-- The one operation of the machine that writes the space is the commit of R133. -/
theorem State.commit_wf (f : Frame) (s : State) (h : Memory.wf s.sink = true) :
    Memory.wf (s.commit f).sink = true :=
  Memory.write_wf _ _ _ f.opcode.isLt h

/-- R28: a commit changes the register it addresses and no other. -/
theorem State.commit_reg (f : Frame) (s : State) (a : Byte) :
    (s.commit f).reg a = if a = f.opcode then f.data else s.reg a := by
  have h : (a.toNat = f.opcode.toNat) ↔ a = f.opcode := BitVec.toNat_inj
  simp only [State.reg, State.commit, Memory.read_write, h]
  split <;> rfl

end Sys2Proof.Machine
end

