-- ==== Sys2Proof/Laws/State.lean ====
section
/-! SUPPORT. One lemma per field of State per update, so that no later proof unfolds a record update. -/

namespace Sys2Proof.Machine

/-! `State.commit` -/

@[simp] theorem State.commit_cfg (f : Frame) (s : State) : (s.commit f).cfg = s.cfg := rfl
@[simp] theorem State.commit_life (f : Frame) (s : State) : (s.commit f).life = s.life := rfl
@[simp] theorem State.commit_cs (f : Frame) (s : State) : (s.commit f).cs = s.cs := rfl
@[simp] theorem State.commit_clk (f : Frame) (s : State) : (s.commit f).clk = s.clk := rfl
@[simp] theorem State.commit_data (f : Frame) (s : State) : (s.commit f).data = s.data := rfl
@[simp] theorem State.commit_busy (f : Frame) (s : State) : (s.commit f).busy = s.busy := rfl
@[simp] theorem State.commit_phase (f : Frame) (s : State) : (s.commit f).phase = s.phase := rfl
@[simp] theorem State.commit_tb (f : Frame) (s : State) : (s.commit f).tb = s.tb := rfl
@[simp] theorem State.commit_pl (f : Frame) (s : State) : (s.commit f).pl = s.pl := rfl
@[simp] theorem State.commit_err (f : Frame) (s : State) : (s.commit f).err = s.err := rfl
@[simp] theorem State.commit_errInfo (f : Frame) (s : State) : (s.commit f).errInfo = s.errInfo := rfl
@[simp] theorem State.commit_encIn (f : Frame) (s : State) : (s.commit f).encIn = s.encIn := rfl
@[simp] theorem State.commit_encOut (f : Frame) (s : State) : (s.commit f).encOut = s.encOut := rfl
@[simp] theorem State.commit_sink (f : Frame) (s : State) : (s.commit f).sink = Memory.write s.sink f.opcode.toNat f.data := rfl
@[simp] theorem State.commit_sr (f : Frame) (s : State) : (s.commit f).sr = s.sr := rfl
@[simp] theorem State.commit_count (f : Frame) (s : State) : (s.commit f).count = s.count := rfl
@[simp] theorem State.commit_frames (f : Frame) (s : State) : (s.commit f).frames = s.frames ++ [f] := rfl
@[simp] theorem State.commit_wire (f : Frame) (s : State) : (s.commit f).wire = s.wire := rfl
@[simp] theorem State.commit_host (f : Frame) (s : State) : (s.commit f).host = s.host := rfl
@[simp] theorem State.commit_prim (f : Frame) (s : State) : (s.commit f).prim = s.prim := rfl

/-! `State.receiverStart` -/

@[simp] theorem State.receiverStart_cfg (s : State) : s.receiverStart.cfg = s.cfg := rfl
@[simp] theorem State.receiverStart_life (s : State) : s.receiverStart.life = s.life := rfl
@[simp] theorem State.receiverStart_cs (s : State) : s.receiverStart.cs = s.cs := rfl
@[simp] theorem State.receiverStart_clk (s : State) : s.receiverStart.clk = s.clk := rfl
@[simp] theorem State.receiverStart_data (s : State) : s.receiverStart.data = s.data := rfl
@[simp] theorem State.receiverStart_busy (s : State) : s.receiverStart.busy = s.busy := rfl
@[simp] theorem State.receiverStart_phase (s : State) : s.receiverStart.phase = s.phase := rfl
@[simp] theorem State.receiverStart_tb (s : State) : s.receiverStart.tb = s.tb := rfl
@[simp] theorem State.receiverStart_pl (s : State) : s.receiverStart.pl = s.pl := rfl
@[simp] theorem State.receiverStart_err (s : State) : s.receiverStart.err = s.err := rfl
@[simp] theorem State.receiverStart_errInfo (s : State) : s.receiverStart.errInfo = s.errInfo := rfl
@[simp] theorem State.receiverStart_encIn (s : State) : s.receiverStart.encIn = s.encIn := rfl
@[simp] theorem State.receiverStart_encOut (s : State) : s.receiverStart.encOut = s.encOut := rfl
@[simp] theorem State.receiverStart_sink (s : State) : s.receiverStart.sink = s.sink := rfl
@[simp] theorem State.receiverStart_sr (s : State) : s.receiverStart.sr = s.sr := rfl
@[simp] theorem State.receiverStart_count (s : State) : s.receiverStart.count = 0 := rfl
@[simp] theorem State.receiverStart_frames (s : State) : s.receiverStart.frames = s.frames := rfl
@[simp] theorem State.receiverStart_wire (s : State) : s.receiverStart.wire = s.wire := rfl
@[simp] theorem State.receiverStart_host (s : State) : s.receiverStart.host = s.host := rfl
@[simp] theorem State.receiverStart_prim (s : State) : s.receiverStart.prim = s.prim := rfl

/-! `State.sample` -/

@[simp] theorem State.sample_cfg (s : State) : s.sample.cfg = s.cfg := rfl
@[simp] theorem State.sample_life (s : State) : s.sample.life = s.life := rfl
@[simp] theorem State.sample_cs (s : State) : s.sample.cs = s.cs := rfl
@[simp] theorem State.sample_clk (s : State) : s.sample.clk = s.clk := rfl
@[simp] theorem State.sample_data (s : State) : s.sample.data = s.data := rfl
@[simp] theorem State.sample_busy (s : State) : s.sample.busy = s.busy := rfl
@[simp] theorem State.sample_phase (s : State) : s.sample.phase = s.phase := rfl
@[simp] theorem State.sample_tb (s : State) : s.sample.tb = s.tb := rfl
@[simp] theorem State.sample_pl (s : State) : s.sample.pl = s.pl := rfl
@[simp] theorem State.sample_err (s : State) : s.sample.err = s.err := rfl
@[simp] theorem State.sample_errInfo (s : State) : s.sample.errInfo = s.errInfo := rfl
@[simp] theorem State.sample_encIn (s : State) : s.sample.encIn = s.encIn := rfl
@[simp] theorem State.sample_encOut (s : State) : s.sample.encOut = s.encOut := rfl
@[simp] theorem State.sample_sink (s : State) : s.sample.sink = s.sink := rfl
@[simp] theorem State.sample_sr (s : State) : s.sample.sr = s.sr.extractLsb' 0 15 ++ BitVec.ofBool s.data := rfl
@[simp] theorem State.sample_count (s : State) : s.sample.count = s.count + 1 := rfl
@[simp] theorem State.sample_frames (s : State) : s.sample.frames = s.frames := rfl
@[simp] theorem State.sample_wire (s : State) : s.sample.wire = s.wire := rfl
@[simp] theorem State.sample_host (s : State) : s.sample.host = s.host := rfl
@[simp] theorem State.sample_prim (s : State) : s.sample.prim = s.prim := rfl

/-! `State.emit` -/

@[simp] theorem State.emit_cfg (f : Frame) (s : State) : (s.emit f).cfg = s.cfg := rfl
@[simp] theorem State.emit_life (f : Frame) (s : State) : (s.emit f).life = s.life := rfl
@[simp] theorem State.emit_cs (f : Frame) (s : State) : (s.emit f).cs = s.cs := rfl
@[simp] theorem State.emit_clk (f : Frame) (s : State) : (s.emit f).clk = s.clk := rfl
@[simp] theorem State.emit_data (f : Frame) (s : State) : (s.emit f).data = f.data.getLsbD 0 := rfl
@[simp] theorem State.emit_busy (f : Frame) (s : State) : (s.emit f).busy = s.busy := rfl
@[simp] theorem State.emit_phase (f : Frame) (s : State) : (s.emit f).phase = s.phase := rfl
@[simp] theorem State.emit_tb (f : Frame) (s : State) : (s.emit f).tb = s.tb := rfl
@[simp] theorem State.emit_pl (f : Frame) (s : State) : (s.emit f).pl = s.pl := rfl
@[simp] theorem State.emit_err (f : Frame) (s : State) : (s.emit f).err = s.err := rfl
@[simp] theorem State.emit_errInfo (f : Frame) (s : State) : (s.emit f).errInfo = s.errInfo := rfl
@[simp] theorem State.emit_encIn (f : Frame) (s : State) : (s.emit f).encIn = s.encIn := rfl
@[simp] theorem State.emit_encOut (f : Frame) (s : State) : (s.emit f).encOut = s.encOut := rfl
@[simp] theorem State.emit_sink (f : Frame) (s : State) : (s.emit f).sink = Memory.write s.sink f.opcode.toNat f.data := rfl
@[simp] theorem State.emit_sr (f : Frame) (s : State) : (s.emit f).sr = f.word := rfl
@[simp] theorem State.emit_count (f : Frame) (s : State) : (s.emit f).count = frameBits := rfl
@[simp] theorem State.emit_frames (f : Frame) (s : State) : (s.emit f).frames = s.frames ++ [f] := rfl
@[simp] theorem State.emit_wire (f : Frame) (s : State) : (s.emit f).wire = s.wire ++ framePins f := rfl
@[simp] theorem State.emit_host (f : Frame) (s : State) : (s.emit f).host = s.host := rfl
@[simp] theorem State.emit_prim (f : Frame) (s : State) : (s.emit f).prim = s.prim := rfl

/-! `State.finish` -/

@[simp] theorem State.finish_cfg (isInit : Bool) (s : State) : (s.finish isInit).cfg = s.cfg := rfl
@[simp] theorem State.finish_life (isInit : Bool) (s : State) : (s.finish isInit).life = if isInit then .active else s.life := rfl
@[simp] theorem State.finish_cs (isInit : Bool) (s : State) : (s.finish isInit).cs = s.cs := rfl
@[simp] theorem State.finish_clk (isInit : Bool) (s : State) : (s.finish isInit).clk = s.clk := rfl
@[simp] theorem State.finish_data (isInit : Bool) (s : State) : (s.finish isInit).data = s.data := rfl
@[simp] theorem State.finish_busy (isInit : Bool) (s : State) : (s.finish isInit).busy = false := rfl
@[simp] theorem State.finish_phase (isInit : Bool) (s : State) : (s.finish isInit).phase = .idle := rfl
@[simp] theorem State.finish_tb (isInit : Bool) (s : State) : (s.finish isInit).tb = s.tb := rfl
@[simp] theorem State.finish_pl (isInit : Bool) (s : State) : (s.finish isInit).pl = s.pl := rfl
@[simp] theorem State.finish_err (isInit : Bool) (s : State) : (s.finish isInit).err = s.err := rfl
@[simp] theorem State.finish_errInfo (isInit : Bool) (s : State) : (s.finish isInit).errInfo = s.errInfo := rfl
@[simp] theorem State.finish_encIn (isInit : Bool) (s : State) : (s.finish isInit).encIn = s.encIn := rfl
@[simp] theorem State.finish_encOut (isInit : Bool) (s : State) : (s.finish isInit).encOut = s.encOut := rfl
@[simp] theorem State.finish_sink (isInit : Bool) (s : State) : (s.finish isInit).sink = s.sink := rfl
@[simp] theorem State.finish_sr (isInit : Bool) (s : State) : (s.finish isInit).sr = s.sr := rfl
@[simp] theorem State.finish_count (isInit : Bool) (s : State) : (s.finish isInit).count = s.count := rfl
@[simp] theorem State.finish_frames (isInit : Bool) (s : State) : (s.finish isInit).frames = s.frames := rfl
@[simp] theorem State.finish_wire (isInit : Bool) (s : State) : (s.finish isInit).wire = s.wire := rfl
@[simp] theorem State.finish_host (isInit : Bool) (s : State) : (s.finish isInit).host = s.host := rfl
@[simp] theorem State.finish_prim (isInit : Bool) (s : State) : (s.finish isInit).prim = s.prim := rfl

/-! `State.advance` -/

@[simp] theorem State.advance_cfg (isInit : Bool) (rest : List Assign) (s : State) : (s.advance isInit rest).cfg = s.cfg := rfl
@[simp] theorem State.advance_life (isInit : Bool) (rest : List Assign) (s : State) :
    (s.advance isInit rest).life = if isInit && rest.isEmpty then .active else s.life := rfl
@[simp] theorem State.advance_cs (isInit : Bool) (rest : List Assign) (s : State) : (s.advance isInit rest).cs = s.cs := rfl
@[simp] theorem State.advance_clk (isInit : Bool) (rest : List Assign) (s : State) : (s.advance isInit rest).clk = s.clk := rfl
@[simp] theorem State.advance_data (isInit : Bool) (rest : List Assign) (s : State) :
    (s.advance isInit rest).data = s.data := rfl
@[simp] theorem State.advance_busy (isInit : Bool) (rest : List Assign) (s : State) :
    (s.advance isInit rest).busy = s.busy := rfl
@[simp] theorem State.advance_phase (isInit : Bool) (rest : List Assign) (s : State) :
    (s.advance isInit rest).phase = .running isInit rest := rfl
@[simp] theorem State.advance_tb (isInit : Bool) (rest : List Assign) (s : State) : (s.advance isInit rest).tb = s.tb := rfl
@[simp] theorem State.advance_pl (isInit : Bool) (rest : List Assign) (s : State) : (s.advance isInit rest).pl = s.pl := rfl
@[simp] theorem State.advance_err (isInit : Bool) (rest : List Assign) (s : State) : (s.advance isInit rest).err = s.err := rfl
@[simp] theorem State.advance_errInfo (isInit : Bool) (rest : List Assign) (s : State) :
    (s.advance isInit rest).errInfo = s.errInfo := rfl
@[simp] theorem State.advance_encIn (isInit : Bool) (rest : List Assign) (s : State) :
    (s.advance isInit rest).encIn = s.encIn := rfl
@[simp] theorem State.advance_encOut (isInit : Bool) (rest : List Assign) (s : State) :
    (s.advance isInit rest).encOut = s.encOut := rfl
@[simp] theorem State.advance_sink (isInit : Bool) (rest : List Assign) (s : State) :
    (s.advance isInit rest).sink = s.sink := rfl
@[simp] theorem State.advance_sr (isInit : Bool) (rest : List Assign) (s : State) : (s.advance isInit rest).sr = s.sr := rfl
@[simp] theorem State.advance_count (isInit : Bool) (rest : List Assign) (s : State) :
    (s.advance isInit rest).count = s.count := rfl
@[simp] theorem State.advance_frames (isInit : Bool) (rest : List Assign) (s : State) :
    (s.advance isInit rest).frames = s.frames := rfl
@[simp] theorem State.advance_wire (isInit : Bool) (rest : List Assign) (s : State) :
    (s.advance isInit rest).wire = s.wire := rfl
@[simp] theorem State.advance_host (isInit : Bool) (rest : List Assign) (s : State) :
    (s.advance isInit rest).host = s.host := rfl
@[simp] theorem State.advance_prim (isInit : Bool) (rest : List Assign) (s : State) :
    (s.advance isInit rest).prim = s.prim := rfl

theorem State.advance_cons (isInit : Bool) (a : Assign) (l : List Assign) (s : State) :
    s.advance isInit (a :: l) = { s with phase := .running isInit (a :: l) } := by simp [State.advance]

/-! `State.raiseInvalidArgument` -/

@[simp] theorem State.raiseInvalidArgument_cfg (d : Byte) (s : State) : (s.raiseInvalidArgument d).cfg = s.cfg := rfl
@[simp] theorem State.raiseInvalidArgument_life (d : Byte) (s : State) : (s.raiseInvalidArgument d).life = s.life := rfl
@[simp] theorem State.raiseInvalidArgument_cs (d : Byte) (s : State) : (s.raiseInvalidArgument d).cs = s.cs := rfl
@[simp] theorem State.raiseInvalidArgument_clk (d : Byte) (s : State) : (s.raiseInvalidArgument d).clk = s.clk := rfl
@[simp] theorem State.raiseInvalidArgument_data (d : Byte) (s : State) : (s.raiseInvalidArgument d).data = s.data := rfl
@[simp] theorem State.raiseInvalidArgument_busy (d : Byte) (s : State) : (s.raiseInvalidArgument d).busy = s.busy := rfl
@[simp] theorem State.raiseInvalidArgument_phase (d : Byte) (s : State) : (s.raiseInvalidArgument d).phase = s.phase := rfl
@[simp] theorem State.raiseInvalidArgument_tb (d : Byte) (s : State) : (s.raiseInvalidArgument d).tb = s.tb := rfl
@[simp] theorem State.raiseInvalidArgument_pl (d : Byte) (s : State) : (s.raiseInvalidArgument d).pl = s.pl := rfl
@[simp] theorem State.raiseInvalidArgument_err (d : Byte) (s : State) : (s.raiseInvalidArgument d).err = true := rfl
@[simp] theorem State.raiseInvalidArgument_errInfo (d : Byte) (s : State) : (s.raiseInvalidArgument d).errInfo = d := rfl
@[simp] theorem State.raiseInvalidArgument_errCode (d : Byte) (s : State) : (s.raiseInvalidArgument d).errCode = 1 := rfl
@[simp] theorem State.raiseInvalidArgument_encIn (d : Byte) (s : State) : (s.raiseInvalidArgument d).encIn = s.encIn := rfl
@[simp] theorem State.raiseInvalidArgument_encOut (d : Byte) (s : State) : (s.raiseInvalidArgument d).encOut = s.encOut := rfl
@[simp] theorem State.raiseInvalidArgument_sink (d : Byte) (s : State) : (s.raiseInvalidArgument d).sink = s.sink := rfl
@[simp] theorem State.raiseInvalidArgument_sr (d : Byte) (s : State) : (s.raiseInvalidArgument d).sr = s.sr := rfl
@[simp] theorem State.raiseInvalidArgument_count (d : Byte) (s : State) : (s.raiseInvalidArgument d).count = s.count := rfl
@[simp] theorem State.raiseInvalidArgument_frames (d : Byte) (s : State) : (s.raiseInvalidArgument d).frames = s.frames := rfl
@[simp] theorem State.raiseInvalidArgument_wire (d : Byte) (s : State) : (s.raiseInvalidArgument d).wire = s.wire := rfl
@[simp] theorem State.raiseInvalidArgument_host (d : Byte) (s : State) : (s.raiseInvalidArgument d).host = s.host := rfl
@[simp] theorem State.raiseInvalidArgument_prim (d : Byte) (s : State) : (s.raiseInvalidArgument d).prim = s.prim := rfl

/-! `State.drive` writes one line and WIRE -/

@[simp] theorem State.drive_cfg (a : Assign) (s : State) : (s.drive a).cfg = s.cfg := by
  unfold State.drive; cases a.line <;> rfl
@[simp] theorem State.drive_life (a : Assign) (s : State) : (s.drive a).life = s.life := by
  unfold State.drive; cases a.line <;> rfl
theorem State.drive_cs (a : Assign) (s : State) : (s.drive a).cs = if a.line = .cs then a.level else s.cs := by
  unfold State.drive; cases a.line <;> rfl
theorem State.drive_clk (a : Assign) (s : State) : (s.drive a).clk = if a.line = .clk then a.level else s.clk := by
  unfold State.drive; cases a.line <;> rfl
theorem State.drive_data (a : Assign) (s : State) : (s.drive a).data = if a.line = .data then a.level else s.data := by
  unfold State.drive; cases a.line <;> rfl
@[simp] theorem State.drive_busy (a : Assign) (s : State) : (s.drive a).busy = s.busy := by
  unfold State.drive; cases a.line <;> rfl
@[simp] theorem State.drive_phase (a : Assign) (s : State) : (s.drive a).phase = s.phase := by
  unfold State.drive; cases a.line <;> rfl
@[simp] theorem State.drive_tb (a : Assign) (s : State) : (s.drive a).tb = s.tb := by
  unfold State.drive; cases a.line <;> rfl
@[simp] theorem State.drive_pl (a : Assign) (s : State) : (s.drive a).pl = s.pl := by
  unfold State.drive; cases a.line <;> rfl
@[simp] theorem State.drive_err (a : Assign) (s : State) : (s.drive a).err = s.err := by
  unfold State.drive; cases a.line <;> rfl
@[simp] theorem State.drive_errInfo (a : Assign) (s : State) : (s.drive a).errInfo = s.errInfo := by
  unfold State.drive; cases a.line <;> rfl
@[simp] theorem State.drive_encIn (a : Assign) (s : State) : (s.drive a).encIn = s.encIn := by
  unfold State.drive; cases a.line <;> rfl
@[simp] theorem State.drive_encOut (a : Assign) (s : State) : (s.drive a).encOut = s.encOut := by
  unfold State.drive; cases a.line <;> rfl
@[simp] theorem State.drive_sink (a : Assign) (s : State) : (s.drive a).sink = s.sink := by
  unfold State.drive; cases a.line <;> rfl
@[simp] theorem State.drive_sr (a : Assign) (s : State) : (s.drive a).sr = s.sr := by
  unfold State.drive; cases a.line <;> rfl
@[simp] theorem State.drive_count (a : Assign) (s : State) : (s.drive a).count = s.count := by
  unfold State.drive; cases a.line <;> rfl
@[simp] theorem State.drive_frames (a : Assign) (s : State) : (s.drive a).frames = s.frames := by
  unfold State.drive; cases a.line <;> rfl
@[simp] theorem State.drive_wire (a : Assign) (s : State) : (s.drive a).wire = s.wire ++ [a] := by
  unfold State.drive; cases a.line <;> rfl
@[simp] theorem State.drive_host (a : Assign) (s : State) : (s.drive a).host = s.host := by
  unfold State.drive; cases a.line <;> rfl
@[simp] theorem State.drive_prim (a : Assign) (s : State) : (s.drive a).prim = s.prim := by
  unfold State.drive; cases a.line <;> rfl

/-! `State.start` writes busy and phase, and ends a command with an empty list at once -/

theorem State.start_cons (isInit : Bool) (a : Assign) (l : List Assign) (s : State) :
    s.start isInit (a :: l) = { s with busy := true, phase := .running isInit (a :: l) } := rfl

theorem State.start_nil (isInit : Bool) (s : State) : s.start isInit [] = s.finish isInit := rfl

@[simp] theorem State.start_cfg (isInit : Bool) (l : List Assign) (s : State) : (s.start isInit l).cfg = s.cfg := by
  cases l <;> rfl
@[simp] theorem State.start_cs (isInit : Bool) (l : List Assign) (s : State) : (s.start isInit l).cs = s.cs := by
  cases l <;> rfl
@[simp] theorem State.start_clk (isInit : Bool) (l : List Assign) (s : State) : (s.start isInit l).clk = s.clk := by
  cases l <;> rfl
@[simp] theorem State.start_data (isInit : Bool) (l : List Assign) (s : State) : (s.start isInit l).data = s.data := by
  cases l <;> rfl
@[simp] theorem State.start_tb (isInit : Bool) (l : List Assign) (s : State) : (s.start isInit l).tb = s.tb := by
  cases l <;> rfl
@[simp] theorem State.start_pl (isInit : Bool) (l : List Assign) (s : State) : (s.start isInit l).pl = s.pl := by
  cases l <;> rfl
@[simp] theorem State.start_err (isInit : Bool) (l : List Assign) (s : State) : (s.start isInit l).err = s.err := by
  cases l <;> rfl
@[simp] theorem State.start_errInfo (isInit : Bool) (l : List Assign) (s : State) : (s.start isInit l).errInfo = s.errInfo := by
  cases l <;> rfl
@[simp] theorem State.start_encIn (isInit : Bool) (l : List Assign) (s : State) : (s.start isInit l).encIn = s.encIn := by
  cases l <;> rfl
@[simp] theorem State.start_encOut (isInit : Bool) (l : List Assign) (s : State) : (s.start isInit l).encOut = s.encOut := by
  cases l <;> rfl
@[simp] theorem State.start_sink (isInit : Bool) (l : List Assign) (s : State) : (s.start isInit l).sink = s.sink := by
  cases l <;> rfl
@[simp] theorem State.start_sr (isInit : Bool) (l : List Assign) (s : State) : (s.start isInit l).sr = s.sr := by
  cases l <;> rfl
@[simp] theorem State.start_count (isInit : Bool) (l : List Assign) (s : State) : (s.start isInit l).count = s.count := by
  cases l <;> rfl
@[simp] theorem State.start_frames (isInit : Bool) (l : List Assign) (s : State) : (s.start isInit l).frames = s.frames := by
  cases l <;> rfl
@[simp] theorem State.start_wire (isInit : Bool) (l : List Assign) (s : State) : (s.start isInit l).wire = s.wire := by
  cases l <;> rfl
@[simp] theorem State.start_host (isInit : Bool) (l : List Assign) (s : State) : (s.start isInit l).host = s.host := by
  cases l <;> rfl
@[simp] theorem State.start_prim (isInit : Bool) (l : List Assign) (s : State) : (s.start isInit l).prim = s.prim := by
  cases l <;> rfl

theorem State.start_life (l : List Assign) (s : State) : (s.start false l).life = s.life := by
  cases l <;> rfl

/-! `State.restart` -/

@[simp] theorem State.restart_cfg (s : State) : s.restart.cfg = s.cfg := rfl
@[simp] theorem State.restart_life (s : State) : s.restart.life = State.reset.life := rfl
@[simp] theorem State.restart_cs (s : State) : s.restart.cs = State.reset.cs := rfl
@[simp] theorem State.restart_clk (s : State) : s.restart.clk = State.reset.clk := rfl
@[simp] theorem State.restart_data (s : State) : s.restart.data = State.reset.data := rfl
@[simp] theorem State.restart_busy (s : State) : s.restart.busy = State.reset.busy := rfl
@[simp] theorem State.restart_phase (s : State) : s.restart.phase = State.reset.phase := rfl
@[simp] theorem State.restart_tb (s : State) : s.restart.tb = State.reset.tb := rfl
@[simp] theorem State.restart_pl (s : State) : s.restart.pl = State.reset.pl := rfl
@[simp] theorem State.restart_err (s : State) : s.restart.err = State.reset.err := rfl
@[simp] theorem State.restart_errInfo (s : State) : s.restart.errInfo = State.reset.errInfo := rfl
@[simp] theorem State.restart_encIn (s : State) : s.restart.encIn = s.encIn := rfl
@[simp] theorem State.restart_encOut (s : State) : s.restart.encOut = s.encOut := rfl
@[simp] theorem State.restart_sink (s : State) : s.restart.sink = State.reset.sink := rfl
@[simp] theorem State.restart_sr (s : State) : s.restart.sr = State.reset.sr := rfl
@[simp] theorem State.restart_count (s : State) : s.restart.count = State.reset.count := rfl
@[simp] theorem State.restart_frames (s : State) : s.restart.frames = State.reset.frames := rfl
@[simp] theorem State.restart_wire (s : State) : s.restart.wire = State.reset.wire := rfl
@[simp] theorem State.restart_host (s : State) : s.restart.host = s.host := rfl
@[simp] theorem State.restart_prim (s : State) : s.restart.prim = State.reset.prim := rfl

end Sys2Proof.Machine
end

