-- ==== Sys2Proof/Laws/Ops.lean ====
section
/-! SUPPORT. For each shared operation, once, everything it can do. -/

namespace Sys2Proof.Machine

/-- Everything the receiver can answer (R131 to R134): nothing, a new count, a sampled bit, a committed frame, or the fault. -/
theorem State.receive_cases (old s : State) (a : Assign) :
    old.receive a s = .next s ∨
    (a.line = .cs ∧ old.cs = true ∧ a.level = false ∧ old.receive a s = .next s.receiverStart) ∨
    (a.line = .clk ∧ old.clk = false ∧ a.level = true ∧ old.cs = false ∧ old.receive a s = .next s.sample) ∨
    (a.line = .cs ∧ old.cs = false ∧ a.level = true ∧ s.count = frameBits ∧
      old.receive a s = .next (s.commit s.srFrame)) ∨
    (a.line = .cs ∧ old.cs = false ∧ a.level = true ∧ s.count ≠ frameBits ∧
      old.receive a s = .fault (.malformedFrame s.count)) := by
  obtain ⟨line, level⟩ := a
  unfold State.receive
  cases line <;> cases level <;> cases hcs : old.cs <;> cases hclk : old.clk <;> simp
  all_goals by_cases h : s.count = frameBits <;> simp [h]

/-- What a pin assignment that answers a next state leaves alone: everything but the lines, WIRE and the sink. -/
theorem State.pin_frame {a : Assign} {s t : State} (h : s.pin a = .next t) :
    t.cfg = s.cfg ∧ t.life = s.life ∧ t.busy = s.busy ∧ t.phase = s.phase ∧ t.tb = s.tb ∧ t.pl = s.pl ∧
    t.err = s.err ∧ t.errInfo = s.errInfo ∧ t.encIn = s.encIn ∧ t.encOut = s.encOut ∧ t.host = s.host ∧ t.prim = s.prim := by
  unfold State.pin at h
  obtain h' | ⟨-, -, -, h'⟩ | ⟨-, -, -, -, h'⟩ | ⟨-, -, -, -, h'⟩ | ⟨-, -, -, -, h'⟩ :=
    State.receive_cases s (s.drive a) a <;> rw [h'] at h <;> cases h <;> simp

/-- R126: a pin assignment gives its line its level, leaves the other two lines, and is recorded in WIRE. -/
theorem State.pin_lines {a : Assign} {s t : State} (h : s.pin a = .next t) :
    t.cs = (s.drive a).cs ∧ t.clk = (s.drive a).clk ∧ t.data = (s.drive a).data ∧ t.wire = s.wire ++ [a] := by
  unfold State.pin at h
  obtain h' | ⟨-, -, -, h'⟩ | ⟨-, -, -, -, h'⟩ | ⟨-, -, -, -, h'⟩ | ⟨-, -, -, -, h'⟩ :=
    State.receive_cases s (s.drive a) a <;> rw [h'] at h <;> cases h <;> simp

theorem State.receive_not_refused (old s : State) (a : Assign) (r : Refusal) : old.receive a s ≠ .refused r := by
  obtain h | ⟨-, -, -, h⟩ | ⟨-, -, -, -, h⟩ | ⟨-, -, -, -, h⟩ | ⟨-, -, -, -, h⟩ :=
    State.receive_cases old s a <;> rw [h] <;> nofun

theorem State.pin_not_refused (a : Assign) (s : State) (r : Refusal) : s.pin a ≠ .refused r :=
  State.receive_not_refused _ _ _ _

/-- Two lists of pin assignments one after the other. -/
theorem State.pins_append (l m : List Assign) (s : State) :
    s.pins (l ++ m) = match s.pins l with
      | .next t => t.pins m
      | .fault r => .fault r
      | .refused r => .refused r := by
  induction l generalizing s with
  | nil => rfl
  | cons a rest ih =>
    simp only [List.cons_append, State.pins]
    cases s.pin a with
    | next t => exact ih t
    | fault r => rfl
    | refused r => rfl

/-- Everything a sequencer step can be (R127). -/
theorem State.tick_cases (s : State) :
    (s.busy = false ∧ s.tick = .next s) ∨
    (s.busy = true ∧ ∃ isInit a rest, s.phase = .running isInit (a :: rest) ∧
      s.tick = State.pin a (s.advance isInit rest)) ∨
    (s.busy = true ∧ ∃ isInit, s.phase = .running isInit [] ∧ s.tick = .next (s.finish isInit)) ∨
    (s.busy = true ∧ s.phase = .idle ∧ s.tick = .next (s.finish false)) := by
  unfold State.tick
  cases hb : s.busy with
  | false => simp
  | true =>
    cases hp : s.phase with
    | idle => simp
    | running isInit l => cases l <;> simp

theorem State.whenFree_idle {s : State} (f : State → Outcome) (h : s.busy = false) : s.whenFree f = f s := by
  simp [State.whenFree, h]

theorem State.whenFree_busy {s : State} (f : State → Outcome) (h : s.busy = true) : s.whenFree f = .next s := by
  simp [State.whenFree, h]

theorem State.accept_idle {s : State} (f : State → Outcome) (h : s.busy = false) :
    s.accept f = f { s with err := false } := by
  simp [State.accept, State.whenFree, h]

theorem State.accept_busy {s : State} (f : State → Outcome) (h : s.busy = true) : s.accept f = .next s := by
  simp [State.accept, State.whenFree, h]

theorem framePins_length (f : Frame) : (framePins f).length = 50 := rfl

theorem pinsOf_length (fs : List Frame) : (pinsOf fs).length = 50 * fs.length := by
  induction fs with
  | nil => rfl
  | cons f rest ih =>
    have h : pinsOf (f :: rest) = framePins f ++ pinsOf rest := rfl
    rw [h, List.length_append, framePins_length, ih, List.length_cons]
    omega

end Sys2Proof.Machine
end

