-- ==== Sys2Proof/Laws/PerInstr.lean ====
section
/-! SUPPORT. Per instruction: its encoding matches its row of spec/opcode_table.json. -/

namespace Sys2Proof.Laws

/-- The bits of a command word, field by field (R65). -/
theorem cmdWord_and_mask (f : Bool) (op a b : Byte) :
    cmdWord f op a b &&& 0x0FF0000#25 = op.setWidth 25 <<< 16 := by
  apply BitVec.eq_of_getLsbD_eq
  intro i hi
  simp only [cmdWord, BitVec.getLsbD_and, BitVec.getLsbD_append, BitVec.getLsbD_shiftLeft, BitVec.getLsbD_setWidth]
  interval_cases i <;> simp

theorem cmdWord_number_and_mask (f : Bool) (op a b : Byte) :
    (cmdWord f op a b).toNat &&& 0x0FF0000 = op.toNat * 2 ^ 16 := by
  have h := congrArg BitVec.toNat (cmdWord_and_mask f op a b)
  rw [BitVec.toNat_and] at h
  have hm : (0x0FF0000#25).toNat = 0x0FF0000 := rfl
  rw [hm] at h
  rw [h]
  rw [BitVec.toNat_shiftLeft, BitVec.toNat_setWidth, Nat.shiftLeft_eq]
  have := op.isLt
  omega

/-- The opcode byte of a frame word (R63). -/
theorem frameWord_and_mask (op data : Byte) : (op ++ data : BitVec 16) &&& 0xFF00#16 = op.setWidth 16 <<< 8 := by
  apply BitVec.eq_of_getLsbD_eq
  intro i hi
  simp only [BitVec.getLsbD_and, BitVec.getLsbD_append, BitVec.getLsbD_shiftLeft, BitVec.getLsbD_setWidth]
  interval_cases i <;> simp

theorem frameWord_number_and_mask (op data : Byte) : (op ++ data : BitVec 16).toNat &&& 0xFF00 = op.toNat * 2 ^ 8 := by
  have h := congrArg BitVec.toNat (frameWord_and_mask op data)
  rw [BitVec.toNat_and] at h
  have hm : (0xFF00#16).toNat = 0xFF00 := rfl
  rw [hm] at h
  rw [h]
  rw [BitVec.toNat_shiftLeft, BitVec.toNat_setWidth, Nat.shiftLeft_eq]
  have := op.isLt
  omega

namespace TableRow

/-- The word the encoder writes has, under the row's mask, the row's match. -/
def Statement (i : Instr) : Prop :=
  (encode Machine.resetCfg i).number &&& i.tableRow.1 = i.tableRow.2

theorem init : Statement .init := cmdWord_number_and_mask ..
theorem setBright (level : Byte) : Statement (.setBright level) := cmdWord_number_and_mask ..
theorem clear : Statement .clear := cmdWord_number_and_mask ..
theorem dispChar (d c : Byte) (dp : Bool) : Statement (.dispChar d c dp) := cmdWord_number_and_mask ..
theorem dispText (text : List Byte) (justify : Bool) : Statement (.dispText text justify) := cmdWord_number_and_mask ..
theorem encode (c : Byte) (dp : Bool) : Statement (.encode c dp) := Nat.and_zero _
theorem wrreg (op data : Byte) : Statement (.wrreg op data) := Nat.and_zero _
theorem shiftOut (b : Byte) : Statement (.shiftOut b) := Nat.and_zero _
theorem wDig1 (p : Byte) : Statement (.wDig1 p) := frameWord_number_and_mask ..
theorem wDig2 (p : Byte) : Statement (.wDig2 p) := frameWord_number_and_mask ..
theorem wDig3 (p : Byte) : Statement (.wDig3 p) := frameWord_number_and_mask ..
theorem wDig4 (p : Byte) : Statement (.wDig4 p) := frameWord_number_and_mask ..
theorem wDig5 (p : Byte) : Statement (.wDig5 p) := frameWord_number_and_mask ..
theorem wDig6 (p : Byte) : Statement (.wDig6 p) := frameWord_number_and_mask ..
theorem wDig7 (p : Byte) : Statement (.wDig7 p) := frameWord_number_and_mask ..
theorem wDig8 (p : Byte) : Statement (.wDig8 p) := frameWord_number_and_mask ..
theorem wDecode (d : Byte) : Statement (.wDecode d) := frameWord_number_and_mask ..
theorem wIntensity (d : Byte) : Statement (.wIntensity d) := frameWord_number_and_mask ..
theorem wScanLim (d : Byte) : Statement (.wScanLim d) := frameWord_number_and_mask ..
theorem wShutdown (d : Byte) : Statement (.wShutdown d) := frameWord_number_and_mask ..
theorem wDispTest (d : Byte) : Statement (.wDispTest d) := frameWord_number_and_mask ..

end TableRow

end Sys2Proof.Laws
end

