-- ==== Sys2Proof/Laws/Step.lean ====
section
/-! SUPPORT. What a fetch and a step can be, each said once. -/

namespace Sys2Proof.Machine

/-- What the host's next input can be taken as (R67, R148, R160). -/
theorem State.fetchHost_cases (s : State) :
    (s.host = [] ∧ s.fetchHost = .nothing s) ∨
    (∃ w txt rest, s.host = .cmd w txt :: rest ∧ s.busy = true ∧ s.fetchHost = .nothing s) ∨
    (∃ w txt rest, s.host = .cmd w txt :: rest ∧ s.busy = false ∧ s.fetchHost = .word (.cmd w txt) { s with host := rest }) ∨
    (∃ w rest, s.host = .enc w :: rest ∧ s.fetchHost = .word (.enc w) { s with host := rest }) ∨
    (∃ rest, s.host = .rst :: rest ∧ s.fetchHost = .reset { s with host := rest }) ∨
    (∃ rest, s.host = .pause :: rest ∧ s.fetchHost = .nothing { s with host := rest }) := by
  unfold State.fetchHost
  cases hh : s.host with
  | nil => simp
  | cons x rest => cases x <;> cases hb : s.busy <;> simp

/-- A direct call of a primitive goes first when the sequencer is free; otherwise the host is served. -/
theorem State.fetch_cases (s : State) :
    (∃ p, s.busy = false ∧ s.prim = some p ∧ s.fetch = .word p.word { s with prim := none }) ∨
    ((s.busy = true ∨ s.prim = none) ∧ s.fetch = s.fetchHost) := by
  unfold State.fetch
  cases hb : s.busy with
  | true => simp
  | false => cases hp : s.prim <;> simp

/-- While the sequencer runs and the host waits, a step is the sequencer's (R127, R148). -/
theorem step_of_busy {s : State} (hb : s.busy = true) (hw : s.host = [] ∨ ∃ w txt rest, s.host = .cmd w txt :: rest) :
    step s = s.tick := by
  have hf : s.fetch = .nothing s := by
    obtain h | ⟨w, txt, rest, h⟩ := hw <;> simp [State.fetch, State.fetchHost, hb, h]
  simp [step, hf]

/-- A step that answers a next state ran a decoded instruction, or was the reset input, or was the sequencer's. -/
theorem step_cases {s t : State} (h : step s = .next t) :
    (∃ w rest i, s.fetch = .word w rest ∧ decode rest.cfg w = .ok i ∧ exec i rest = .next t) ∨
    (∃ rest, s.fetch = .reset rest ∧ t = rest.restart) ∨
    (∃ rest, s.fetch = .nothing rest ∧ rest.tick = .next t) := by
  unfold step at h
  cases hf : s.fetch with
  | word w rest =>
    rw [hf] at h
    simp only [State.run] at h
    cases hd : decode rest.cfg w with
    | ok i => rw [hd] at h; exact .inl ⟨w, rest, i, rfl, hd, h⟩
    | error e => rw [hd] at h; cases e; cases h
  | reset rest => rw [hf] at h; cases h; exact .inr (.inl ⟨rest, rfl, rfl⟩)
  | nothing rest => rw [hf] at h; exact .inr (.inr ⟨rest, rfl, h⟩)

end Sys2Proof.Machine
end

