-- ==== Sys2Proof/Tests/Slice0.lean ====
section
/-! SUPPORT. The model's own tests: expected results are those of spec/95_test_vectors.md (their ids are named), the words are
written out from the encodings of spec/30_encoding.md. Then, for each obligation with hypotheses, values that meet them. -/

namespace Sys2Proof.Tests

open Sys2Proof.Machine

/-- The test font FONT_T of 30_encoding.md section 9 (for tests only). -/
def fontT : List FontEntry :=
  [⟨48, 0x7E⟩, ⟨49, 0x30⟩, ⟨50, 0x6D⟩, ⟨51, 0x79⟩, ⟨52, 0x33⟩, ⟨53, 0x5B⟩, ⟨54, 0x5F⟩, ⟨55, 0x70⟩,
   ⟨56, 0x7F⟩, ⟨57, 0x7B⟩, ⟨45, 0x01⟩, ⟨32, 0x00⟩, ⟨69, 0x4F⟩, ⟨72, 0x37⟩, ⟨76, 0x0E⟩, ⟨80, 0x67⟩]

/-- The test configuration CFG_T of the same section. -/
def cfgT : Cfg := { resetCfg with font := fontT, brightDefault := 0x03 }

/-- The state after reset under CFG_T, and with the guard. -/
def idleT : State := { State.reset with cfg := cfgT, sr := 0, count := 0, tb := [], pl := [] }
def guardT : State := { idleT with cfg := { cfgT with oorGuard := true } }

/-- A state inside a frame: CS low, 16 bits of the frame (0x01, 0xB0) read. -/
def inFrameT : State := { idleT with cs := false, sr := 0x01B0, count := 16 }

/-- A state in which the frame (1, 0xB0) runs. -/
def runningT : State := { idleT with busy := true, phase := .running false (pinsOf [⟨1, 0xB0⟩]) }

/-- A state in which only INIT's last assignment is left. -/
def initLastT : State := { inFrameT with busy := true, phase := .running true [⟨.cs, true⟩] }

/-- The pin list a next state is about to perform; [] if there is none. -/
def listOf : Outcome → List Assign
  | .next s =>
    match s.phase with
    | .idle => []
    | .running _ l => l
  | .fault _ => []
  | .refused _ => []

def errOf : Outcome → Option (Bool × Byte × Bool)
  | .next s => some (s.err, s.errInfo, s.busy)
  | .fault _ => none
  | .refused _ => none

def encOutOf : Outcome → Option Byte
  | .next s => some s.encOut
  | .fault _ => none
  | .refused _ => none

def refusalOf : Outcome → Option Refusal
  | .next _ => none
  | .fault _ => none
  | .refused r => some r

def faultOf : Outcome → Option Fault
  | .next _ => none
  | .fault r => some r
  | .refused _ => none

def framesOf : Outcome → Option (List Frame)
  | .next s => some s.frames
  | .fault _ => none
  | .refused _ => none

/-- A text of ASCII characters (general knowledge, G1). -/
def ascii (s : List Nat) : List Byte := s.map (BitVec.ofNat 8)

/-! ### Well-formedness: an ill-formed term for each check -/

theorem test_wf_text_too_long : (Instr.dispText (List.replicate 256 0x31) false).wf = false := by decide +kernel
theorem test_wf_text_longest : (Instr.dispText (List.replicate 255 0x31) false).wf = true := by decide +kernel
theorem test_wf_font_zero_code : ({ cfgT with font := [⟨0, 0x30⟩] } : Cfg).fontHasNoZero = false := by decide
theorem test_wf_font_repeat : ({ cfgT with font := [⟨49, 0x30⟩, ⟨49, 0x31⟩] } : Cfg).fontHasNoRepeat = false := by decide
theorem test_wf_ops_equal : ({ cfgT with opShutdown := 0x09 } : Cfg).opsDistinct = false := by decide
theorem test_wf_ops_digit : ({ cfgT with opShutdown := 0x08 } : Cfg).opsDistinct = false := by decide
theorem test_wf_bright : ({ cfgT with brightDefault := 0x10 } : Cfg).brightInRange = false := by decide
theorem test_wf_pins : ({ cfgT with pinClk := 0 } : Cfg).pinsDistinct = false := by decide
theorem test_wf_cfgT : cfgT.wf = true := by decide

/-! ### Decoding: words written out from the encodings -/

theorem test_decode_init : decode cfgT (.cmd 0b0_00000001_00000000_00000000 []) = .ok .init := by decide
theorem test_decode_init_ignores_fields : decode cfgT (.cmd 0b1_00000001_11111111_10101010 []) = .ok .init := by decide
theorem test_decode_setBright : decode cfgT (.cmd 0b0_00000010_00000000_00011111 []) = .ok (.setBright 0x1F) := by decide
theorem test_decode_clear : decode cfgT (.cmd 0b0_00000011_00000000_00000000 []) = .ok .clear := by decide
theorem test_decode_dispChar :
    decode cfgT (.cmd 0b1_00000100_00000001_00110001 []) = .ok (.dispChar 1 0x31 true) := by decide
theorem test_decode_dispText :
    decode cfgT (.cmd 0b1_00000101_00000011_00000000 [0x31, 0x2E, 0x35, 0x77]) =
      .ok (.dispText [0x31, 0x2E, 0x35] true) := by decide
theorem test_decode_not_a_command :
    decode cfgT (.cmd 0b0_00000110_00000000_00000000 []) = .error (.notACommand 6) := by decide
theorem test_decode_encode : decode cfgT (.enc 0b1_00110001) = .ok (.encode 0x31 true) := by decide
theorem test_decode_wrreg : decode cfgT (.call 0b00000001_10110000) = .ok (.wrreg 0x01 0xB0) := by decide
theorem test_decode_shiftOut : decode cfgT (.byte 0b10110000) = .ok (.shiftOut 0xB0) := by decide
theorem test_decode_wDig1 : decode cfgT (.frame 0b00000001_10110000) = .ok (.wDig1 0xB0) := by decide
theorem test_decode_wDig2 : decode cfgT (.frame 0b00000010_10110000) = .ok (.wDig2 0xB0) := by decide
theorem test_decode_wDig3 : decode cfgT (.frame 0b00000011_10110000) = .ok (.wDig3 0xB0) := by decide
theorem test_decode_wDig4 : decode cfgT (.frame 0b00000100_10110000) = .ok (.wDig4 0xB0) := by decide
theorem test_decode_wDig5 : decode cfgT (.frame 0b00000101_10110000) = .ok (.wDig5 0xB0) := by decide
theorem test_decode_wDig6 : decode cfgT (.frame 0b00000110_10110000) = .ok (.wDig6 0xB0) := by decide
theorem test_decode_wDig7 : decode cfgT (.frame 0b00000111_10110000) = .ok (.wDig7 0xB0) := by decide
theorem test_decode_wDig8 : decode cfgT (.frame 0b00001000_10110000) = .ok (.wDig8 0xB0) := by decide
theorem test_decode_wDecode : decode cfgT (.frame 0b00001001_00000000) = .ok (.wDecode 0x00) := by decide
theorem test_decode_wIntensity : decode cfgT (.frame 0b00001010_00011111) = .ok (.wIntensity 0x1F) := by decide
theorem test_decode_wScanLim : decode cfgT (.frame 0b00001011_00000111) = .ok (.wScanLim 0x07) := by decide
theorem test_decode_wShutdown : decode cfgT (.frame 0b00001100_00000001) = .ok (.wShutdown 0x01) := by decide
theorem test_decode_wDispTest : decode cfgT (.frame 0b00001111_00000000) = .ok (.wDispTest 0x00) := by decide
theorem test_decode_unnamed_frame : decode cfgT (.frame 0b01100101_11111011) = .ok (.wrreg 0x65 0xFB) := by decide

/-- Table words as numbers, by row width: C-1, ENCODE's port in 9 bits, a frame, SHIFTOUT. -/
theorem test_table_init : decodeTableWord 32 0x0010000 = some .init := by decide
theorem test_table_dispText : decodeTableWord 32 0x1050200 = some (.dispText [0, 0] true) := by decide +kernel
theorem test_table_encode : decodeTableWord 9 0x131 = some (.encode 0x31 true) := by decide
theorem test_table_wDecode : decodeTableWord 16 0x0900 = some (.wDecode 0) := by decide
theorem test_table_shiftOut : decodeTableWord 8 0xB0 = some (.shiftOut 0xB0) := by decide
theorem test_table_no_command : decodeTableWord 32 0x0060000 = none := by decide

/-- E-11: a placed ENCODE word is what the next step runs, also while a command runs (R67). -/
theorem test_step_encode : encOutOf (step (runningT.withFetchWord 9 0x024)) = some 0xB0 := by decide
theorem test_step_not_a_command : refusalOf (step (idleT.withFetchWord 32 0x0FF0000)) = some (.notACommand 0xFF) := by decide

/-! ### ENCODE (section 2.1) -/

/-- E-6, E-9: the two edges of the remap range. -/
theorem test_encode_remap_edges : encodeChar cfgT 35 false = 0xFE ∧ encodeChar cfgT 44 false = 0xFB := by decide
/-- E-13, E-14, E-15: just outside the range. -/
theorem test_encode_outside_remap :
    encodeChar cfgT 34 true = 0x00 ∧ encodeChar cfgT 45 false = 0x01 ∧ encodeChar cfgT 45 true = 0x81 := by decide
/-- E-18, E-20: a miss loses the point, an all-dark glyph keeps it. -/
theorem test_encode_miss_and_dark_hit : encodeChar cfgT 65 true = 0x00 ∧ encodeChar cfgT 32 true = 0x80 := by decide
/-- FONT_X: a base pattern with bit 7 set is never cleared. -/
theorem test_encode_bit7 : encodeChar { cfgT with font := fontT ++ [⟨111, 0x9D⟩] } 111 false = 0x9D := by decide
/-- E-17 and R82: code 0 misses, whatever stands in the table. -/
theorem test_encode_zero : encodeChar { cfgT with font := ⟨0, 0xFF⟩ :: fontT } 0 true = 0x00 := by decide

/-! ### The commands: the pin lists they are accepted with -/

/-- C-1. -/
theorem test_init_frames : initFrames cfgT =
    [⟨0x0B, 0x07⟩, ⟨0x09, 0x00⟩, ⟨0x0C, 0x01⟩, ⟨0x0F, 0x00⟩, ⟨1, 0⟩, ⟨2, 0⟩, ⟨3, 0⟩, ⟨4, 0⟩, ⟨5, 0⟩, ⟨6, 0⟩, ⟨7, 0⟩, ⟨8, 0⟩,
     ⟨0x0A, 0x03⟩] := by decide
/-- C-1, R185: 651 assignments, the first being (CS,1). -/
theorem test_init_list : (listOf (exec .init idleT)).length = 651 ∧ (listOf (exec .init idleT)).head? = some ⟨.cs, true⟩ := by
  decide +kernel
/-- C-7. -/
theorem test_setBright_list : listOf (exec (.setBright 0x1F) idleT) = framePins ⟨0x0A, 0x1F⟩ := by decide +kernel
/-- C-3. -/
theorem test_clear_list : (listOf (exec .clear idleT)).length = 400 := by decide +kernel
/-- D-C2. -/
theorem test_dispChar_list : listOf (exec (.dispChar 1 0x31 true) idleT) = framePins ⟨0x02, 0xB0⟩ := by decide +kernel
/-- D-C11: the address wraps to 0. -/
theorem test_dispChar_wraps : listOf (exec (.dispChar 255 0x38 false) idleT) = framePins ⟨0x00, 0x7F⟩ := by decide +kernel
/-- D-C13: refused by the guard; D-C14 is not. -/
theorem test_dispChar_guard : errOf (exec (.dispChar 8 0x38 false) guardT) = some (true, 8, false) := by decide
/-- R146: the code is 1 for InvalidArgument and 0 after the next command. -/
theorem test_error_code : ({ guardT with err := true } : State).errCode = 1 ∧ guardT.errCode = 0 := by decide
theorem test_dispChar_guard_in_range : listOf (exec (.dispChar 7 0x38 false) guardT) = framePins ⟨0x08, 0x7F⟩ := by
  decide +kernel
/-- T-5: "1.5" right; T-1: the empty text ends at once. -/
theorem test_dispText_list : listOf (exec (.dispText [0x31, 0x2E, 0x35] false) idleT) =
    pinsOf [⟨0x02, 0xB0⟩, ⟨0x01, 0x5B⟩] := by decide +kernel
theorem test_dispText_empty : errOf (exec (.dispText [] false) idleT) = some (false, 0, false) := by decide
/-- T-6, T-13, T-14, T-24: the layout and the justifications. -/
theorem test_text_left : textFrames cfgT (layout (truncate (ascii [49, 46, 53]))) true = [⟨0x08, 0xB0⟩, ⟨0x07, 0x5B⟩] := by
  decide
theorem test_text_dropped_dot : layout (truncate (ascii [49, 50, 51, 52, 53, 54, 55, 56, 57, 46])) =
    (ascii [49, 50, 51, 52, 53, 54, 55, 56]).map fun c => ⟨c, false⟩ := by decide
theorem test_text_kept_dot : (layout (truncate (ascii [49, 50, 51, 52, 53, 54, 55, 56, 46, 57]))).getLast? =
    some ⟨56, true⟩ := by decide
theorem test_text_point_inside : textFrames cfgT (layout (truncate (ascii [45, 49, 50, 46, 53]))) false =
    [⟨0x04, 0x01⟩, ⟨0x03, 0x30⟩, ⟨0x02, 0xED⟩, ⟨0x01, 0x5B⟩] := by decide
/-- T-17: the 17th character is clipped before it can set a flag. -/
theorem test_text_clipped : layout (truncate (List.replicate 8 46 ++ ascii [49, 50, 51, 52, 53, 54, 55, 56, 46])) =
    (ascii [49, 50, 51, 52, 53, 54, 55, 56]).map fun c => ⟨c, false⟩ := by decide

/-! ### RW and the receiver (R136, W-1, W-5) -/

/-- R136, W-1: the DATA levels of WRREG 0x01, 0xB0 in order. -/
theorem test_wrreg_data_bits :
    ((listOf (exec (.wrreg 0x01 0xB0) idleT)).filter fun a => a.line == .data).map Assign.level =
      [false, false, false, false, false, false, false, true, true, false, true, true, false, false, false, false] := by
  decide +kernel
/-- W-1: the receiver commits (0x01, 0xB0) at the rising edge of CS. -/
theorem test_commit : framesOf (inFrameT.pin ⟨.cs, true⟩) = some [⟨0x01, 0xB0⟩] := by decide
theorem test_malformed : faultOf ({ inFrameT with count := 15 }.pin ⟨.cs, true⟩) = some (.malformedFrame 15) := by decide
/-- W-7: INIT's leading (CS,1) is no edge. -/
theorem test_no_edge : framesOf (idleT.pin ⟨.cs, true⟩) = some [] := by decide
/-- R126: a repeated (CLK,1) with CS low is no edge, so it samples nothing; a repeated (CS,0) does not restart the count. -/
theorem test_no_edge_inside : ({ inFrameT with clk := true }.pin ⟨.clk, true⟩) =
      .next { inFrameT with clk := true, wire := [⟨.clk, true⟩] } ∧
    inFrameT.pin ⟨.cs, false⟩ = .next { inFrameT with wire := [⟨.cs, false⟩] } := ⟨rfl, rfl⟩
/-- SHIFTOUT 0xB0: 24 assignments, the first DATA level being bit 7. -/
theorem test_shiftOut_list : (listOf (exec (.shiftOut 0xB0) idleT)).length = 24 ∧
    (listOf (exec (.shiftOut 0xB0) idleT)).head? = some ⟨.data, true⟩ := by decide +kernel
theorem test_wDig3_list : listOf (exec (.wDig3 0x5B) idleT) = framePins ⟨0x03, 0x5B⟩ := by decide +kernel
theorem test_wDispTest_list : listOf (exec (.wDispTest 0x01) idleT) = framePins ⟨0x0F, 0x01⟩ := by decide +kernel

/-- R15: life is Active in the step that commits INIT's last frame, busy still being 1 (R17). -/
theorem test_life_at_last_commit : step initLastT = .next { initLastT with
    cs := true, wire := [⟨.cs, true⟩], frames := [⟨0x01, 0xB0⟩], sink := [⟨1, 0xB0⟩], life := .active,
    phase := .running true [] } := by rfl
/-- R95: the last assignment of another command leaves life. -/
theorem test_life_other_command : step { initLastT with phase := .running false [⟨.cs, true⟩] } = .next { initLastT with
    cs := true, wire := [⟨.cs, true⟩], frames := [⟨0x01, 0xB0⟩], sink := [⟨1, 0xB0⟩], phase := .running false [] } := by rfl

/-- R148: a command presented while busy stays presented, and the sequencer performs its assignment. -/
theorem test_busy_waits : step { runningT with host := [.cmd 0x0010000 []] } = .next { runningT with
    cs := false, count := 0, wire := [⟨.cs, false⟩], phase := .running false (pinsOf [⟨1, 0xB0⟩]).tail,
    host := [.cmd 0x0010000 []] } := by rfl
/-- R67: the ENC port serves while a command runs, and does not move it. -/
theorem test_enc_while_busy : listOf (step (runningT.withFetchWord 9 0x024)) = pinsOf [⟨1, 0xB0⟩] := by decide +kernel

/-! ### The hypotheses of the obligations are met -/

theorem test_hyp_DecodeOfEncodeIsTheInstruction :
    cfgT.opsDistinct = true ∧ (Instr.dispText (List.replicate 255 0x31) true).wf = true := by decide +kernel
theorem test_hyp_DecodedInstructionIsWellFormed :
    decode cfgT (.cmd (cmdWord true 5 2 0) [0x31, 0x32]) = .ok (.dispText [0x31, 0x32] true) := by decide
theorem test_hyp_StepRunsTheDecodedInstruction_cmd :
    ({ idleT with host := [.cmd 0x0010000 []] } : State).busy = false ∧ idleT.prim = none ∧
      decode cfgT (.cmd 0x0010000 []) = .ok .init := by decide
theorem test_hyp_StepRunsTheDecodedInstruction_enc :
    runningT.busy = true ∧ decode runningT.cfg (.enc 0x131) = .ok (.encode 0x31 true) := by decide
theorem test_hyp_StepRunsTheDecodedInstruction_prim :
    ({ idleT with prim := some (.shiftOut 0xB0) } : State).busy = false ∧
      decode idleT.cfg (Primitive.shiftOut 0xB0).word = .ok (.shiftOut 0xB0) := by decide
theorem test_hyp_PlacedWordIsRunByTheNextStep_enc :
    tableWord 9 0x131 = some (.enc 0x131) ∧ decode idleT.cfg (.enc 0x131) = .ok (.encode 0x31 true) := by decide
theorem test_hyp_PlacedWordIsRunByTheNextStep_other :
    tableWord 16 0x0100 = some (.frame 0x0100) ∧ decode idleT.cfg (.frame 0x0100) = .ok (.wDig1 0) := by decide
theorem test_hyp_OtherCommandCodesAreRefused :
    (cmdOp 0x0000000).toNat = 0 ∧ 5 < (cmdOp 0x0060000).toNat ∧ 5 < (cmdOp 0x0FF0000).toNat ∧
      ({ idleT with host := [.cmd 0x0060000 []] } : State).busy = false := by decide
theorem test_hyp_LookupIsTheFirstMatch :
    cfgT.fontHasNoZero = true ∧ cfgT.fontHasNoRepeat = true ∧ (⟨49, 0x30⟩ : FontEntry) ∈ cfgT.font := by decide
theorem test_hyp_EncodeHasTheFourTestableProperties :
    lookup cfgT.font 65 = none ∧ lookup cfgT.font 45 = some 0x01 ∧ lookup cfgT.font (35 + 13) = some 0x7E ∧
      lookup cfgT.font (44 + 13) = some 0x7B ∧ lookup cfgT.font 34 = none := by decide
theorem test_hyp_ReceiverFollowsTheEdges :
    idleT.cs = true ∧ idleT.clk = false ∧ inFrameT.cs = false ∧ inFrameT.clk = false ∧ inFrameT.count = 16 ∧
      ({ inFrameT with clk := true } : State).clk = true ∧ ({ inFrameT with clk := true } : State).cs = false := by decide
theorem test_hyp_RaisingChipSelectEarlyFaults :
    ({ inFrameT with count := 15 } : State).cs = false ∧ ({ inFrameT with count := 15 } : State).count ≠ 16 ∧
      ({ inFrameT with count := 17 } : State).count ≠ 16 := by decide
/-- Met by WiresAndFramesAgree and ShiftOutMovesEightBits. -/
theorem test_hyp_WiresAndFramesAgree : idleT.cs = true ∧ idleT.clk = false := by decide
theorem test_hyp_ShiftOutMovesEightBits : inFrameT.cs = false ∧ inFrameT.clk = false ∧ idleT.cs = true ∧ idleT.clk = false := by
  decide
/-- The premises of the completion statements: InitRunsToItsEnd, SetBrightRunsToItsEnd, ClearRunsToItsEnd, WrregRunsToItsEnd,
ShiftOutRunsToItsEnd, DigitFramesRunToTheirEnd, ControlFramesRunToTheirEnd. -/
theorem test_hyp_RunsToItsEnd : idleT.ready = true ∧ idleT.hostWaits = true ∧ State.reset.ready = true ∧
    State.reset.hostWaits = true := by decide
theorem test_hyp_DispCharRunsToItsEnd :
    guardT.ready = true ∧ guardT.hostWaits = true ∧ (guardT.cfg.oorGuard = true → (7 : Byte) ≤ 7) ∧
      (idleT.cfg.oorGuard = true → (255 : Byte) ≤ 7) := by decide
theorem test_hyp_GuardRefusesAnIndexAboveSeven :
    guardT.busy = false ∧ guardT.cfg.oorGuard = true ∧ (7 : Byte) < 8 ∧ (7 : Byte) < 255 ∧ isCommand .clear = true := by decide
theorem test_hyp_DispTextRunsToItsEnd : idleT.ready = true ∧ idleT.hostWaits = true ∧
    [(⟨0x31, true⟩ : Pair), ⟨0x35, false⟩] = (fold ([0x31, 0x2E, 0x35].take 16)).take 8 ∧
    [(⟨0x31, true⟩ : Pair), ⟨0x35, false⟩] ≠ [] := by decide
theorem test_hyp_TextWithoutPairsEndsAtOnce : idleT.ready = true ∧
    (∀ c ∈ (List.replicate 16 (46 : Byte) ++ [0x31]).take 16, c = 46) := by decide
theorem test_hyp_FramesOfACommandCommitOneByOne :
    1 ≤ [(⟨1, 0xB0⟩ : Frame)].length ∧ runningT.busy = true ∧ runningT.phase = .running false (pinsOf [⟨1, 0xB0⟩]) ∧
      runningT.cs = true ∧ runningT.clk = false ∧ runningT.hostWaits = true := by decide +kernel
theorem test_hyp_NothingIsAcceptedWhileBusy :
    ({ runningT with host := [.cmd 0x0010000 []] } : State).busy = true ∧ (∀ c dp, Instr.init ≠ .encode c dp) :=
  ⟨rfl, nofun⟩
theorem test_hyp_ExecLeavesTheRestUnchanged : (framesOf (exec .clear idleT)).isSome = true ∧
    (framesOf (exec (.encode 0x31 true) idleT)).isSome = true ∧ isCommand (.shiftOut 0) = false := by decide +kernel
theorem test_hyp_FramesWriteOnlyTheirRegisters : ∀ f ∈ clearFrames, f.opcode ≠ 9 := by decide
theorem test_hyp_CommandsWriteOnlyTheirAddresses : (0 : Byte) ≤ 7 ∧ (7 : Byte) ≤ 7 ∧ (7 : Byte) < 8 ∧ (7 : Byte) < 255 := by decide
theorem test_hyp_FoldFoldsFullStops : (0x31 : Byte) ≠ 46 := by decide
theorem test_hyp_TextOpcodesDescend : 8 = (layout (truncate (List.replicate 16 0x31))).length := by decide
theorem test_hyp_EightPairsJustifyAlike : (layout (truncate (List.replicate 16 0x31))).length = 8 := by decide
theorem test_hyp_InitConfiguresTheSink : idleT.cfg.opsDistinct = true ∧ (0 : Byte) ≤ 7 ∧ (7 : Byte) ≤ 7 := by decide
theorem test_hyp_OtherCommandsKeepTheConfiguration : idleT.cfg.opsDistinct = true ∧
    (∀ f ∈ clearFrames ++ [(⟨0x0A, 0x1F⟩ : Frame)], (1 ≤ f.opcode ∧ f.opcode ≤ 8) ∨ f.opcode = idleT.cfg.opIntensity) := by decide
theorem test_hyp_BrightnessIsTheLowFourBits :
    State.emits [⟨idleT.cfg.opIntensity, 0x1F⟩] idleT = State.emits [⟨0x0A, 0x1F⟩] idleT := rfl
theorem test_hyp_ContentFollowsTheRecord : State.RecordsFrames (idleT.commit ⟨1, 0xB0⟩) ∧
    (∀ f ∈ (idleT.commit ⟨1, 0xB0⟩).frames, cfgT.named f.opcode = true) := by
  refine ⟨fun a => ?_, by decide⟩
  by_cases h : a = 1
  · subst h; exact ⟨rfl, rfl⟩
  · have h1 : ¬(1 = a.toNat) := fun e => h (BitVec.eq_of_toNat_eq e.symm)
    have h2 : ¬((1 : Byte) = a) := Ne.symm h
    have h3 : lastData a [(⟨1, 0xB0⟩ : Frame)] = none := by simp [lastData]; exact h2
    have h4 : Memory.read (idleT.commit ⟨1, 0xB0⟩).sink a.toNat = none := if_neg h1
    have h5 : (idleT.commit ⟨1, 0xB0⟩).frames = [⟨1, 0xB0⟩] := rfl
    rw [State.reg, h5, h3, h4]
    exact ⟨rfl, rfl⟩
theorem test_hyp_StepKeepsTheSinkCanonical : Memory.wf (idleT.commit ⟨1, 0xB0⟩).sink = true ∧
    (framesOf (step (idleT.commit ⟨1, 0xB0⟩))).isSome = true := by decide +kernel
/-- A framed state, busy and idle; the next step of each answers a next state. -/
theorem test_hyp_StepKeepsTheFraming : idleT.Framed ∧ runningT.Framed ∧ (framesOf (step runningT)).isSome = true :=
  ⟨⟨rfl, rfl, rfl⟩, ⟨rfl, by decide +kernel⟩, by decide +kernel⟩
theorem test_hyp_StepKeepsTheBracketRule : idleT.WireBracketed ∧ runningT.WireBracketed :=
  ⟨⟨rfl, rfl, by decide⟩, rfl, rfl, by decide +kernel⟩
theorem test_hyp_WireAloneTellsTheSink : State.reset.WireTellsTheSink ∧ (framesOf (step State.reset)).isSome = true :=
  ⟨rfl, rfl⟩
theorem test_hyp_StepKeepsTheRecordOfFrames : idleT.RecordsFrames := fun _ => ⟨rfl, rfl⟩
theorem test_hyp_StepKeepsTheEncPort : idleT.EncPortAgrees := by unfold State.EncPortAgrees; decide
theorem test_hyp_StepKeepsTheWorkingStorage : idleT.StorageBounded := by unfold State.StorageBounded; decide
theorem test_hyp_StepKeepsErrUnderTheGuard : idleT.ErrNeedsGuard ∧ ({ guardT with err := true } : State).ErrNeedsGuard :=
  ⟨nofun, fun _ => rfl⟩
/-- A step that answers a next state: the premise of the whole-machine rules. -/
theorem test_hyp_step_next : step runningT = .next { runningT with
    cs := false, count := 0, wire := [⟨.cs, false⟩], phase := .running false ((pinsOf [⟨1, 0xB0⟩]).tail) } := by rfl
/-- For each clause of LifeIsActiveFromTheLastCommitOfInit. -/
theorem test_hyp_LifeIsActiveFromTheLastCommitOfInit :
    (initLastT.busy = true ∧ initLastT.hostWaits = true ∧ initLastT.phase = .running true [⟨.cs, true⟩] ∧
      initLastT.cs = false ∧ initLastT.count = 16) ∧
    ({ initLastT with phase := .running true [] } : State).hostWaits = true ∧
    ∃ isInit a b rest, runningT.phase = .running isInit (a :: b :: rest) ∧ runningT.hostWaits = true :=
  ⟨⟨rfl, rfl, rfl, rfl, rfl⟩, rfl, _, _, _, _, rfl, rfl⟩
theorem test_hyp_OneAssignmentAStep : ∀ rest, runningT.host ≠ .rst :: rest := nofun
theorem test_hyp_NothingIsReadBack : State.blockView idleT = State.blockView (idleT.commit ⟨1, 0xB0⟩) := rfl
theorem test_hyp_ResetInputRestoresTheResetValues :
    ({ runningT with host := [.rst] } : State).host = .rst :: [] ∧ ({ runningT with host := [.rst] } : State).busy = true :=
  ⟨rfl, rfl⟩
/-- For each clause of NothingPresentedMovesOnlyTheSequencer. -/
theorem test_hyp_NothingPresentedMovesOnlyTheSequencer :
    (idleT.busy = false ∧ idleT.prim = none ∧ idleT.host = []) ∧
    ({ idleT with host := [.pause, .rst] } : State).host = .pause :: [.rst] ∧
    (runningT.busy = true ∧ runningT.host = []) ∧
    ({ runningT with host := [.pause] } : State).host = .pause :: [] := ⟨⟨rfl, rfl, rfl⟩, rfl, ⟨rfl, rfl⟩, rfl⟩

end Sys2Proof.Tests
end

namespace Sys2Proof.Machine

/-! ## What executing an instruction does to a state

`exec` reads CFG and busy and nothing else, and what it does then is one of seven effects. The case split over the 21
instructions is made here and nowhere else. -/

/-- What an instruction does to the state it is executed in. -/
inductive Effect where
  /-- The block is busy: the word waits (R148). -/
  | waits
  /-- ENCODE at its port (R67). -/
  | encodes (input : BitVec 9) (output : Byte)
  /-- DISPCHAR refused by the guard (R104, R146). -/
  | refuses (d : Byte)
  /-- INIT (R90). -/
  | inits
  /-- A host command that keeps TB and PL, with its pin assignment list (R127). -/
  | commands (l : List Assign)
  /-- DISPTEXT, with its text and its pin assignment list (R115). -/
  | displays (text : List Byte) (l : List Assign)
  /-- A primitive called directly (R123, R124). -/
  | calls (l : List Assign)

def Effect.apply (s : State) : Effect → State
  | .waits => s
  | .encodes input output => { s with encIn := input, encOut := output }
  | .refuses d => State.raiseInvalidArgument d { s with err := false }
  | .inits => State.start true (initPins s.cfg) { s with err := false }
  | .commands l => State.start false l { s with err := false }
  | .displays text l =>
    State.start false l { s with err := false, tb := truncate text, pl := layout (truncate text) }
  | .calls l => s.start false l

/-- The meaning `m` has one effect on all states that agree with `s` in CFG and busy. -/
def HasEffectAt (m : State → Outcome) (s : State) : Prop :=
  ∃ e : Effect, ∀ t : State, t.cfg = s.cfg → t.busy = s.busy → m t = .next (e.apply t)

/-- Nothing is accepted while busy, so that only the effect on a free state is left to give. -/
theorem whenFree_hasEffectAt {f : State → Outcome} {s : State} (e : Effect)
    (h : ∀ t : State, t.cfg = s.cfg → f t = .next (e.apply t)) : HasEffectAt (fun t => t.whenFree f) s := by
  cases hs : s.busy with
  | true => exact ⟨.waits, fun t _ hb => State.whenFree_busy f (hb.trans hs)⟩
  | false => exact ⟨e, fun t hc hb => (State.whenFree_idle f (hb.trans hs)).trans (h t hc)⟩

/-- A frame is sent by its 50 pin assignments, whichever opcode CFG gives it. -/
theorem sendFrame_hasEffectAt (f : Cfg → Frame) (s : State) : HasEffectAt (fun t => t.sendFrame (f t.cfg)) s := by
  obtain ⟨e, he⟩ := whenFree_hasEffectAt (s := s) (f := fun t => .next (t.start false (framePins (f s.cfg))))
    (.calls (framePins (f s.cfg))) fun _ _ => rfl
  exact ⟨e, fun t hc hb => (congrArg (fun cfg => t.sendFrame (f cfg)) hc).trans (he t hc hb)⟩

theorem execDispChar_hasEffectAt (d c : Byte) (dp : Bool) (s : State) : HasEffectAt (execDispChar d c dp) s := by
  cases hg : outOfRange s.cfg d with
  | true => exact whenFree_hasEffectAt (.refuses d) fun t hc => by simp [hc, hg, Effect.apply]
  | false =>
    exact whenFree_hasEffectAt (.commands (pinsOf (charFrames s.cfg d c dp))) fun t hc => by
      simp [hc, hg, Effect.apply]

/-- Every instruction has one effect on all states with one CFG and one level of busy. -/
theorem exec_hasEffectAt (i : Instr) (s : State) : HasEffectAt (exec i) s := by
  cases i with
  | init => exact whenFree_hasEffectAt .inits fun _ _ => rfl
  | setBright level =>
    exact whenFree_hasEffectAt (.commands (pinsOf (brightFrames s.cfg level))) fun t hc => by rw [← hc]; rfl
  | clear => exact whenFree_hasEffectAt (.commands (pinsOf clearFrames)) fun _ _ => rfl
  | dispChar d c dp => exact execDispChar_hasEffectAt d c dp s
  | dispText text justify =>
    exact whenFree_hasEffectAt (.displays text (pinsOf (textFrames s.cfg (layout (truncate text)) justify)))
      fun t hc => by rw [← hc]; rfl
  | encode c dp =>
    exact ⟨.encodes (BitVec.ofBool dp ++ c) (encodeChar s.cfg c dp), fun t hc _ => by rw [← hc]; rfl⟩
  | wrreg op data => exact sendFrame_hasEffectAt (fun _ => ⟨op, data⟩) s
  | shiftOut b => exact whenFree_hasEffectAt (.calls (shiftPins b)) fun _ _ => rfl
  | wDig1 p => exact sendFrame_hasEffectAt (fun _ => ⟨1, p⟩) s
  | wDig2 p => exact sendFrame_hasEffectAt (fun _ => ⟨2, p⟩) s
  | wDig3 p => exact sendFrame_hasEffectAt (fun _ => ⟨3, p⟩) s
  | wDig4 p => exact sendFrame_hasEffectAt (fun _ => ⟨4, p⟩) s
  | wDig5 p => exact sendFrame_hasEffectAt (fun _ => ⟨5, p⟩) s
  | wDig6 p => exact sendFrame_hasEffectAt (fun _ => ⟨6, p⟩) s
  | wDig7 p => exact sendFrame_hasEffectAt (fun _ => ⟨7, p⟩) s
  | wDig8 p => exact sendFrame_hasEffectAt (fun _ => ⟨8, p⟩) s
  | wDecode d => exact sendFrame_hasEffectAt (fun cfg => ⟨cfg.opDecodeMode, d⟩) s
  | wIntensity d => exact sendFrame_hasEffectAt (fun cfg => ⟨cfg.opIntensity, d⟩) s
  | wScanLim d => exact sendFrame_hasEffectAt (fun cfg => ⟨cfg.opScanLimit, d⟩) s
  | wShutdown d => exact sendFrame_hasEffectAt (fun cfg => ⟨cfg.opShutdown, d⟩) s
  | wDispTest d => exact sendFrame_hasEffectAt (fun cfg => ⟨cfg.opDisplayTest, d⟩) s

/-- An instruction that answers a next state had one of the effects. -/
theorem exec_next_effect {i : Instr} {s t : State} (h : exec i s = .next t) : ∃ e : Effect, t = e.apply s := by
  obtain ⟨e, he⟩ := exec_hasEffectAt i s
  exact ⟨e, (Host.Outcome.next.inj ((he s rfl rfl).symm.trans h)).symm⟩

/-! Acceptance moves no line, sends nothing and commits nothing. -/

@[simp] theorem Effect.apply_cfg (e : Effect) (s : State) : (e.apply s).cfg = s.cfg := by
  cases e <;> simp [Effect.apply]
@[simp] theorem Effect.apply_life (e : Effect) (s : State) : (e.apply s).life = s.life := by
  cases e <;> simp [Effect.apply, State.start_life, initPins, State.start_cons]
@[simp] theorem Effect.apply_observer (e : Effect) (s : State) : (e.apply s).observer = s.observer := by
  cases e <;> simp [Effect.apply, State.observer]
@[simp] theorem Effect.apply_wire (e : Effect) (s : State) : (e.apply s).wire = s.wire := by
  cases e <;> simp [Effect.apply]
@[simp] theorem Effect.apply_sink (e : Effect) (s : State) : (e.apply s).sink = s.sink := by
  cases e <;> simp [Effect.apply]
@[simp] theorem Effect.apply_frames (e : Effect) (s : State) : (e.apply s).frames = s.frames := by
  cases e <;> simp [Effect.apply]

/-! ## What a fetch takes

A fetch reads busy, prim and the host's inputs, and takes its input away from the last two. -/

/-- What was fetched, with the state that is left of it put over `t`: `t` but for the host's inputs and prim. -/
def Fetched.over (t : State) : Fetched → Fetched
  | .word w rest => .word w { t with host := rest.host, prim := rest.prim }
  | .reset rest => .reset { t with host := rest.host, prim := rest.prim }
  | .nothing rest => .nothing { t with host := rest.host, prim := rest.prim }

theorem State.fetchHost_eq_over {s t : State} (hb : t.busy = s.busy) (hh : t.host = s.host) (hp : t.prim = s.prim) :
    t.fetchHost = s.fetchHost.over t := by
  obtain ⟨u, rfl⟩ : ∃ u : State, t = { u with busy := s.busy, host := s.host, prim := s.prim } :=
    ⟨t, by rw [← hb, ← hh, ← hp]⟩
  cases hsh : s.host with
  | nil => simp [State.fetchHost, Fetched.over, hsh]
  | cons x rest =>
    cases x with
    | cmd w txt => cases hsb : s.busy <;> simp [State.fetchHost, Fetched.over, hsh, hsb]
    | enc w => simp [State.fetchHost, Fetched.over, hsh]
    | rst => simp [State.fetchHost, Fetched.over, hsh]
    | pause => simp [State.fetchHost, Fetched.over, hsh]

theorem State.fetch_eq_over {s t : State} (hb : t.busy = s.busy) (hh : t.host = s.host) (hp : t.prim = s.prim) :
    t.fetch = s.fetch.over t := by
  have hhost : t.fetchHost = s.fetchHost.over t := State.fetchHost_eq_over hb hh hp
  cases hsb : s.busy with
  | true => simpa [State.fetch, hb, hsb] using hhost
  | false =>
    cases hsp : s.prim with
    | none => simpa [State.fetch, hb, hp, hsb, hsp] using hhost
    | some p => simp [State.fetch, Fetched.over, hb, hh, hp, hsb, hsp]

/-! ## One induction over what a step can do -/

/-- `R` is kept by all a step does but the pin assignments: what it takes from the inputs, the effects of the instructions, the
reset input and the sequencer. Related states agree in what the block reads. -/
structure Respected (R : State → State → Prop) : Prop where
  reads : ∀ {s t}, R s t → t.cfg = s.cfg ∧ t.busy = s.busy ∧ t.phase = s.phase ∧ t.host = s.host ∧ t.prim = s.prim
  takes : ∀ {s t} host prim, R s t → R { s with host := host, prim := prim } { t with host := host, prim := prim }
  effect : ∀ {s t} (e : Effect), R s t → R (e.apply s) (e.apply t)
  restart : ∀ {s t}, R s t → R s.restart t.restart
  advance : ∀ {s t} isInit rest, R s t → R (s.advance isInit rest) (t.advance isInit rest)
  finish : ∀ {s t} isInit, R s t → R (s.finish isInit) (t.finish isInit)

/-- `Q` relates two outcomes where `R` relates their next states, and compares pin assignments from related states. -/
structure Compares (Q : Outcome → Outcome → Prop) (R : State → State → Prop) : Prop where
  next : ∀ {s t}, R s t → Q (.next s) (.next t)
  refused : ∀ r, Q (.refused r) (.refused r)
  pin : ∀ {s t} a, R s t → Q (s.pin a) (t.pin a)

section
variable {R : State → State → Prop} {Q : Outcome → Outcome → Prop} {s t : State}

theorem Respected.run (hR : Respected R) (hQ : Compares Q R) (w : InstrWord) (h : R s t) : Q (s.run w) (t.run w) := by
  obtain ⟨hcfg, hbusy, -⟩ := hR.reads h
  unfold State.run
  rw [hcfg]
  cases decode s.cfg w with
  | ok i =>
    obtain ⟨e, he⟩ := exec_hasEffectAt i s
    have hs : exec i s = .next (e.apply s) := he s rfl rfl
    have ht : exec i t = .next (e.apply t) := he t hcfg hbusy
    simp only [hs, ht]
    exact hQ.next (hR.effect e h)
  | error e => cases e; exact hQ.refused _

theorem Respected.tick (hR : Respected R) (hQ : Compares Q R) (h : R s t) : Q s.tick t.tick := by
  obtain ⟨-, hbusy, hphase, -⟩ := hR.reads h
  unfold State.tick
  rw [hbusy, hphase]
  cases s.busy with
  | false => exact hQ.next h
  | true =>
    match s.phase with
    | .idle => exact hQ.next (hR.finish false h)
    | .running isInit [] => exact hQ.next (hR.finish isInit h)
    | .running isInit (a :: rest) => exact hQ.pin a (hR.advance isInit rest h)

/-- Steps from related states compare. -/
theorem Respected.step (hR : Respected R) (hQ : Compares Q R) (h : R s t) : Q (step s) (step t) := by
  obtain ⟨-, hbusy, -, hhost, hprim⟩ := hR.reads h
  have hs : s.fetch = s.fetch.over s := State.fetch_eq_over rfl rfl rfl
  have ht : t.fetch = s.fetch.over t := State.fetch_eq_over hbusy hhost hprim
  unfold Machine.step
  rw [ht, hs]
  cases s.fetch with
  | word w rest => exact hR.run hQ w (hR.takes _ _ h)
  | reset rest => exact hQ.next (hR.restart (hR.takes _ _ h))
  | nothing rest => exact hR.tick hQ (hR.takes _ _ h)

end

/-- Every part of a step keeps `P`. -/
structure Kept (P : State → Prop) : Prop where
  takes : ∀ {s} host prim, P s → P { s with host := host, prim := prim }
  effect : ∀ {s} (e : Effect), P s → P (e.apply s)
  restart : ∀ {s}, P s → P s.restart
  advance : ∀ {s} isInit rest, P s → P (s.advance isInit rest)
  finish : ∀ {s} isInit, P s → P (s.finish isInit)
  pin : ∀ {s t} a, P s → s.pin a = .next t → P t

/-- An invariant is a relation of a state with itself. -/
theorem Kept.respected {P : State → Prop} (hP : Kept P) : Respected fun s t => t = s ∧ P s where
  reads := by rintro s _ ⟨rfl, -⟩; exact ⟨rfl, rfl, rfl, rfl, rfl⟩
  takes := by rintro s _ host prim ⟨rfl, h⟩; exact ⟨rfl, hP.takes host prim h⟩
  effect := by rintro s _ e ⟨rfl, h⟩; exact ⟨rfl, hP.effect e h⟩
  restart := by rintro s _ ⟨rfl, h⟩; exact ⟨rfl, hP.restart h⟩
  advance := by rintro s _ isInit rest ⟨rfl, h⟩; exact ⟨rfl, hP.advance isInit rest h⟩
  finish := by rintro s _ isInit ⟨rfl, h⟩; exact ⟨rfl, hP.finish isInit h⟩

theorem Kept.step {P : State → Prop} (hP : Kept P) {s t : State} (h : P s) (hst : step s = .next t) : P t := by
  have hQ : Compares (fun o _ => ∀ u, o = .next u → P u) fun s t => t = s ∧ P s :=
    { next := by rintro s _ ⟨rfl, h⟩ _ ⟨⟩; exact h
      refused := fun _ _ => nofun
      pin := by rintro s _ a ⟨rfl, h⟩ u hu; exact hP.pin a h hu }
  exact hP.respected.step hQ ⟨rfl, h⟩ t hst

/-! ## The receiver, edge by edge -/

section
variable {s : State} {v : Bool}

theorem State.pin_data (v : Bool) (s : State) : s.pin ⟨.data, v⟩ = .next (s.drive ⟨.data, v⟩) := rfl

/-- R132: the rising edge of CLK with CS low samples DATA. -/
theorem State.pin_clk_rise (hcs : s.cs = false) (hclk : s.clk = false) :
    s.pin ⟨.clk, true⟩ = .next (s.drive ⟨.clk, true⟩).sample := by
  simp [State.pin, State.receive, hcs, hclk]

theorem State.pin_clk_quiet (h : ¬(s.cs = false ∧ s.clk = false ∧ v = true)) :
    s.pin ⟨.clk, v⟩ = .next (s.drive ⟨.clk, v⟩) := by
  refine if_neg fun hedge => h ?_
  simp only [Bool.and_eq_true, Bool.not_eq_true'] at hedge
  obtain ⟨⟨hclk, hv⟩, hcs⟩ := hedge
  exact ⟨hcs, hclk, hv⟩

/-- R131: the falling edge of CS starts the count. -/
theorem State.pin_cs_fall (hcs : s.cs = true) :
    s.pin ⟨.cs, false⟩ = .next (s.drive ⟨.cs, false⟩).receiverStart := by
  simp [State.pin, State.receive, hcs]

/-- R133, R134: the rising edge of CS commits SR where n is 16, and faults elsewhere. -/
theorem State.pin_cs_rise (hcs : s.cs = false) :
    s.pin ⟨.cs, true⟩ =
      if s.count = frameBits then .next ((s.drive ⟨.cs, true⟩).commit s.srFrame) else .fault (.malformedFrame s.count) := by
  simp [State.pin, State.receive, hcs, State.srFrame]

theorem State.pin_cs_quiet (hcs : s.cs = v) : s.pin ⟨.cs, v⟩ = .next (s.drive ⟨.cs, v⟩) := by
  cases v <;> simp [State.pin, State.receive, hcs]

end

/-- What a pin assignment makes of a state that does not fault: it drives the line, and the receiver starts a count, samples a
bit, commits a frame or does nothing. -/
theorem State.pin_next {a : Assign} {s t : State} (h : s.pin a = .next t) :
    t = s.drive a ∨ t = (s.drive a).receiverStart ∨ t = (s.drive a).sample ∨ ∃ f, t = (s.drive a).commit f := by
  unfold State.pin at h
  obtain h' | ⟨-, -, -, h'⟩ | ⟨-, -, -, -, h'⟩ | ⟨-, -, -, -, h'⟩ | ⟨-, -, -, -, h'⟩ :=
    State.receive_cases s (s.drive a) a <;> rw [h'] at h <;> cases h
  · exact .inl rfl
  · exact .inr (.inl rfl)
  · exact .inr (.inr (.inl rfl))
  · exact .inr (.inr (.inr ⟨_, rfl⟩))

/-- R132: the sampled shift register, as a number. -/
theorem shiftIn_eq_ofNat (sr : BitVec 16) (b : Bool) :
    sr.extractLsb' 0 15 ++ BitVec.ofBool b = BitVec.ofNat 16 (2 * sr.toNat + b.toNat) := by
  apply BitVec.eq_of_toNat_eq
  have hb : b.toNat < 2 ^ 1 := Bool.toNat_lt b
  rw [BitVec.toNat_append, BitVec.toNat_ofBool, ← Nat.shiftLeft_add_eq_or_of_lt hb, Nat.shiftLeft_eq]
  simp only [BitVec.extractLsb'_toNat, BitVec.toNat_ofNat, Nat.shiftRight_zero]
  omega

/-- R133: the frame in SR, as numbers. -/
theorem State.srFrame_eq (s : State) : s.srFrame = ⟨BitVec.ofNat 8 (s.sr.toNat / 256), BitVec.ofNat 8 s.sr.toNat⟩ := by
  have hop : s.sr.extractLsb' 8 8 = BitVec.ofNat 8 (s.sr.toNat / 256) := by
    apply BitVec.eq_of_toNat_eq
    simp [Nat.shiftRight_eq_div_pow]
  have hdata : s.sr.extractLsb' 0 8 = BitVec.ofNat 8 s.sr.toNat := by
    apply BitVec.eq_of_toNat_eq
    simp
  rw [State.srFrame, hop, hdata]

/-! ## The observer of WIRE -/

/-- Off the rising edge of CLK with CS low the observer notes the level. -/
theorem Observer.see_clk_quiet {o : Observer} {v : Bool} (h : ¬(o.cs = false ∧ o.clk = false ∧ v = true)) :
    o.see ⟨.clk, v⟩ = { o with clk := v } := by
  obtain ⟨cs, clk, data, sr, count, frames⟩ := o
  cases cs with
  | true => rfl
  | false =>
    cases clk with
    | true => rfl
    | false =>
      cases v with
      | false => rfl
      | true => exact absurd ⟨rfl, rfl, rfl⟩ h

/-- A repeated level of CS is no edge. -/
theorem Observer.see_cs_quiet {o : Observer} {v : Bool} (h : o.cs = v) : o.see ⟨.cs, v⟩ = { o with cs := v } := by
  subst h
  obtain ⟨cs, clk, data, sr, count, frames⟩ := o
  cases cs <;> rfl

/-- R25: what a pin assignment does to the lines, SR, n and FRAMES is what the observer makes of it. -/
theorem State.pin_observer {a : Assign} {s t : State} (h : s.pin a = .next t) : t.observer = s.observer.see a := by
  obtain ⟨line, v⟩ := a
  cases line with
  | data =>
    rw [State.pin_data] at h
    cases h; rfl
  | clk =>
    by_cases hedge : s.cs = false ∧ s.clk = false ∧ v = true
    · obtain ⟨hcs, hclk, rfl⟩ := hedge
      rw [State.pin_clk_rise hcs hclk] at h
      cases h
      simp [State.observer, Observer.see, State.drive, hcs, hclk, shiftIn_eq_ofNat]
    · rw [State.pin_clk_quiet hedge] at h
      cases h
      exact (Observer.see_clk_quiet (o := s.observer) hedge).symm
  | cs =>
    by_cases hquiet : s.cs = v
    · rw [State.pin_cs_quiet hquiet] at h
      cases h
      exact (Observer.see_cs_quiet (o := s.observer) hquiet).symm
    · cases v with
      | false =>
        have hcs : s.cs = true := by simpa using hquiet
        rw [State.pin_cs_fall hcs] at h
        cases h
        simp [State.observer, Observer.see, State.drive, hcs]
      | true =>
        have hcs : s.cs = false := by simpa using hquiet
        rw [State.pin_cs_rise hcs] at h
        split at h
        · next hn =>
          cases h
          have hn : s.count = 16 := hn
          simp [State.observer, Observer.see, State.drive, hcs, hn, State.srFrame_eq]
        · cases h

theorem wireTellsTheSink_kept : Kept State.WireTellsTheSink where
  takes _ _ h := h
  effect e h := by simpa [State.WireTellsTheSink] using h
  restart _ := rfl
  advance _ _ h := h
  finish _ h := h
  pin {s t} a h hst := by
    obtain ⟨-, -, -, hwire⟩ := State.pin_lines hst
    calc t.observer
        _ = s.observer.see a := State.pin_observer hst
        _ = (s.wire.foldl Observer.see Observer.start).see a := congrArg (Observer.see · a) h
        _ = t.wire.foldl Observer.see Observer.start := by rw [hwire, List.foldl_concat]

/-- Settles O46: every part of a step keeps the observer's reading of WIRE, a pin assignment by `State.pin_observer`. -/
theorem wireAloneTellsTheSink : Obligations.WireAloneTellsTheSink :=
  fun _ _ => wireTellsTheSink_kept.step

/-! ## The record of frames -/

theorem lastData_append (a : Byte) (fs : List Frame) (f : Frame) :
    lastData a (fs ++ [f]) = if f.opcode = a then some f.data else lastData a fs := by
  by_cases h : f.opcode = a <;> simp [lastData, h]

/-- The second half of R28 follows from the first. -/
theorem State.recordsFrames_iff (s : State) :
    s.RecordsFrames ↔ ∀ a : Byte, Memory.read s.sink a.toNat = lastData a s.frames :=
  ⟨fun h a => (h a).1, fun h a => ⟨h a, by rw [State.reg, h a]⟩⟩

theorem State.RecordsFrames.commit {s : State} (h : s.RecordsFrames) (f : Frame) : (s.commit f).RecordsFrames := by
  rw [State.recordsFrames_iff] at *
  intro a
  have hop : a.toNat = f.opcode.toNat ↔ f.opcode = a := by rw [BitVec.toNat_inj, eq_comm]
  simp [Memory.read_write, lastData_append, hop, h a]

/-- R28 speaks of the record and FRAMES alone. -/
theorem State.RecordsFrames.congr {s t : State} (h : s.RecordsFrames) (hsink : t.sink = s.sink)
    (hframes : t.frames = s.frames) : t.RecordsFrames := by
  rw [State.recordsFrames_iff] at *
  rwa [hsink, hframes]

theorem State.RecordsFrames.pin {s t : State} (h : s.RecordsFrames) {a : Assign} (hst : s.pin a = .next t) :
    t.RecordsFrames := by
  have hdrive : (s.drive a).RecordsFrames := h.congr (s.drive_sink a) (s.drive_frames a)
  obtain rfl | rfl | rfl | ⟨f, rfl⟩ := State.pin_next hst
  · exact hdrive
  · exact hdrive
  · exact hdrive
  · exact hdrive.commit f

theorem State.recordsFrames_reset : State.reset.RecordsFrames := fun _ => ⟨rfl, rfl⟩

theorem recordsFrames_kept : Kept State.RecordsFrames where
  takes _ _ h := h
  effect {s} e h := h.congr (e.apply_sink s) (e.apply_frames s)
  restart _ := State.recordsFrames_reset.congr rfl rfl
  advance _ _ h := h
  finish _ h := h
  pin _ h hst := h.pin hst

/-- Settles O47: only a commit writes the record, and it writes FRAMES with it (`State.RecordsFrames.commit`). -/
theorem stepKeepsTheRecordOfFrames : Obligations.StepKeepsTheRecordOfFrames :=
  fun _ _ => recordsFrames_kept.step

/-! ## What the block does not read -/

/-- What a step does with a state depends, as far as the view `v` can tell, on the view alone; pin assignments left out. -/
structure Suffices (v : State → State) : Prop where
  reads : ∀ s, s.cfg = (v s).cfg ∧ s.busy = (v s).busy ∧ s.phase = (v s).phase ∧ s.host = (v s).host ∧
    s.prim = (v s).prim
  takes : ∀ s host prim, v { s with host := host, prim := prim } = v { v s with host := host, prim := prim }
  effect : ∀ s (e : Effect), v (e.apply s) = v (e.apply (v s))
  restart : ∀ s, v s.restart = v (v s).restart
  advance : ∀ s isInit rest, v (s.advance isInit rest) = v ((v s).advance isInit rest)
  finish : ∀ s isInit, v (s.finish isInit) = v ((v s).finish isInit)

theorem Suffices.respected {v : State → State} (hv : Suffices v) : Respected fun s t => v s = v t where
  reads {s t} h := by
    obtain ⟨hcfg, hbusy, hphase, hhost, hprim⟩ := hv.reads s
    rw [hcfg, hbusy, hphase, hhost, hprim, h]
    exact hv.reads t
  takes host prim h := by rw [hv.takes, h, ← hv.takes]
  effect e h := by rw [hv.effect, h, ← hv.effect]
  restart h := by rw [hv.restart, h, ← hv.restart]
  advance isInit rest h := by rw [hv.advance, h, ← hv.advance]
  finish isInit h := by rw [hv.finish, h, ← hv.finish]

theorem State.start_blockView (isInit : Bool) (l : List Assign) (s : State) :
    (s.start isInit l).blockView = s.blockView.start isInit l := by
  cases l <;> rfl

theorem blockView_suffices : Suffices State.blockView where
  reads _ := ⟨rfl, rfl, rfl, rfl, rfl⟩
  takes _ _ _ := rfl
  effect s e := by cases e <;> simp only [Effect.apply, State.start_blockView] <;> rfl
  restart _ := rfl
  advance _ _ _ := rfl
  finish _ _ := rfl

/-- R27: the block sees of a pin assignment that it drives the line, and nothing of what the sink made of it. -/
theorem State.pin_blockView {a : Assign} {s t : State} (h : s.pin a = .next t) :
    t.blockView = (s.blockView.drive a).blockView := by
  have hdrive : (s.drive a).blockView = (s.blockView.drive a).blockView := by
    unfold State.drive
    cases a.line <;> rfl
  obtain rfl | rfl | rfl | ⟨f, rfl⟩ := State.pin_next h <;> exact hdrive

/-- Settles O55: the view of the block suffices for all a step does, and of a pin assignment the view sees the driven
line only (`State.pin_blockView`). Where one of the two steps faults there is nothing to compare. -/
theorem nothingIsReadBack : Obligations.NothingIsReadBack := by
  intro s₁ s₂ t₁ t₂ h h₁ h₂
  have hQ : Compares (fun o₁ o₂ => ∀ t₁ t₂, o₁ = .next t₁ → o₂ = .next t₂ → t₁.blockView = t₂.blockView)
      fun s t => s.blockView = t.blockView :=
    { next := by rintro s t h _ _ ⟨⟩ ⟨⟩; exact h
      refused := fun _ _ _ => nofun
      pin := fun a h t₁ t₂ h₁ h₂ => by rw [State.pin_blockView h₁, State.pin_blockView h₂, h] }
  exact blockView_suffices.respected.step hQ h t₁ t₂ h₁ h₂

/-! ## Life, TB and PL are not read -/

/-- A state without the values of life, TB and PL. -/
def State.withoutLifeAndText (s : State) : State := { s with life := .uninitialized, tb := [], pl := [] }

/-- A next state mapped, a stop left as it is. -/
def mapNext (f : State → State) : Outcome → Outcome
  | .next s => .next (f s)
  | .fault r => .fault r
  | .refused r => .refused r

theorem withoutLifeAndText_suffices : Suffices State.withoutLifeAndText where
  reads _ := ⟨rfl, rfl, rfl, rfl, rfl⟩
  takes _ _ _ := rfl
  effect s e := by
    cases e with
    | waits => rfl
    | encodes input output => rfl
    | refuses d => rfl
    | inits => rfl
    | commands l => cases l <;> rfl
    | displays text l => cases l <;> rfl
    | calls l => cases l <;> rfl
  restart _ := rfl
  advance _ _ _ := rfl
  finish _ _ := rfl

theorem State.drive_withoutLifeAndText (a : Assign) (s : State) :
    s.withoutLifeAndText.drive a = (s.drive a).withoutLifeAndText := by
  unfold State.drive
  cases a.line <;> rfl

/-- The receiver works alike whatever life, TB and PL are, its fault included. -/
theorem State.pin_withoutLifeAndText (a : Assign) (s : State) :
    mapNext State.withoutLifeAndText (s.pin a) = s.withoutLifeAndText.pin a := by
  obtain ⟨line, v⟩ := a
  unfold State.pin State.receive
  rw [State.drive_withoutLifeAndText]
  cases line with
  | data => rfl
  | clk => simp only [apply_ite (mapNext State.withoutLifeAndText)]; rfl
  | cs => simp only [apply_ite (mapNext State.withoutLifeAndText)]; rfl

/-- States that differ in life, TB and PL alone are made equal by giving one the other's. -/
theorem State.eq_of_withoutLifeAndText {s t : State} (h : s.withoutLifeAndText = t.withoutLifeAndText) :
    { s with life := t.life, tb := t.tb, pl := t.pl } = t := by
  cases s; cases t
  simpa [State.withoutLifeAndText] using h

/-- Settles O56: a step compares, stops included, on states that differ in life, TB and PL. -/
theorem lifeAndOldTextAreNotRead : Obligations.LifeAndOldTextAreNotRead := by
  intro s t life tb pl h
  have hQ : Compares (fun o₁ o₂ => mapNext State.withoutLifeAndText o₁ = mapNext State.withoutLifeAndText o₂)
      fun s t => s.withoutLifeAndText = t.withoutLifeAndText :=
    { next := congrArg Host.Outcome.next
      refused := fun _ => rfl
      pin := fun a h => by rw [State.pin_withoutLifeAndText, h, State.pin_withoutLifeAndText] }
  have hstep := withoutLifeAndText_suffices.respected.step hQ
    (s := { s with life := life, tb := tb, pl := pl }) (t := s) rfl
  rw [h] at hstep
  cases ht : step { s with life := life, tb := tb, pl := pl } with
  | next t' =>
    rw [ht] at hstep
    exact ⟨t', rfl, State.eq_of_withoutLifeAndText (Host.Outcome.next.inj hstep)⟩
  | fault r => rw [ht] at hstep; cases hstep
  | refused r => rw [ht] at hstep; cases hstep

/-! ## The working storage of DISPTEXT -/

theorem setLastDp_map_ch (pl : List Pair) : (setLastDp pl).map Pair.ch = pl.map Pair.ch := by
  induction pl using setLastDp.induct with
  | case1 => rfl
  | case2 p => rfl
  | case3 p q rest ih => simpa [setLastDp] using ih

/-- One character of the fold adds itself to the characters of the pairs, or sets a flag only. -/
theorem foldChar_map_ch (pl : List Pair) (c : Byte) :
    (foldChar pl c).map Pair.ch = if c = dot then pl.map Pair.ch else pl.map Pair.ch ++ [c] := by
  unfold foldChar
  split <;> simp [setLastDp_map_ch]

/-- R111: the pairs' characters are those of the text that are no full stop. -/
theorem fold_map_ch (tb : List Byte) : (fold tb).map Pair.ch = tb.filter fun c => c != dot := by
  induction tb using List.reverseRecOn with
  | nil => rfl
  | append_singleton tb c ih =>
    have hfold : fold (tb ++ [c]) = foldChar (fold tb) c := List.foldl_concat ..
    rw [hfold, foldChar_map_ch, ih, List.filter_append]
    by_cases h : c = dot <;> simp [h]

/-- R62: no pair of the layout is a full stop. -/
theorem ch_ne_dot_of_mem_layout {tb : List Byte} {p : Pair} (h : p ∈ layout tb) : p.ch ≠ dot := by
  have hp : p.ch ∈ (fold tb).map Pair.ch := List.mem_map_of_mem (List.mem_of_mem_take h)
  rw [fold_map_ch] at hp
  simpa using (List.mem_filter.1 hp).2

theorem truncate_length_le (text : List Byte) : (truncate text).length ≤ 16 := List.length_take_le ..

theorem layout_length_le (tb : List Byte) : (layout tb).length ≤ 8 := List.length_take_le ..

/-- R18 speaks of TB and PL alone. -/
theorem State.StorageBounded.congr {s t : State} (h : s.StorageBounded) (htb : t.tb = s.tb) (hpl : t.pl = s.pl) :
    t.StorageBounded := by
  unfold State.StorageBounded
  rw [htb, hpl]
  exact h

theorem State.StorageBounded.effect {s : State} (h : s.StorageBounded) (e : Effect) : (e.apply s).StorageBounded := by
  cases e with
  | displays text l =>
    unfold State.StorageBounded Effect.apply
    rw [State.start_tb, State.start_pl]
    exact ⟨truncate_length_le text, layout_length_le _, fun p => ch_ne_dot_of_mem_layout⟩
  | waits => exact h
  | encodes input output => exact h
  | refuses d => exact h
  | inits => exact h
  | commands l => exact h.congr (State.start_tb ..) (State.start_pl ..)
  | calls l => exact h.congr (State.start_tb ..) (State.start_pl ..)

theorem State.storageBounded_reset : State.reset.StorageBounded := by
  refine ⟨List.length_take_le .., List.length_take_le .., fun p hp => ?_⟩
  simpa using (List.mem_filter.1 (List.mem_of_mem_take hp)).2

theorem storageBounded_kept : Kept State.StorageBounded where
  takes _ _ h := h
  effect e h := h.effect e
  restart _ := State.storageBounded_reset
  advance _ _ h := h
  finish _ h := h
  pin a h hst := by
    obtain ⟨-, -, -, -, htb, hpl, -⟩ := State.pin_frame hst
    exact h.congr htb hpl

/-- Settles O49: DISPTEXT alone writes TB and PL, and its layout is bounded and without full stops. -/
theorem stepKeepsTheWorkingStorage : Obligations.StepKeepsTheWorkingStorage :=
  fun _ _ => storageBounded_kept.step

/-! ## The configuration -/

theorem cfg_kept (cfg : Cfg) : Kept fun s => s.cfg = cfg where
  takes _ _ h := h
  effect {s} e h := (e.apply_cfg s).trans h
  restart h := h
  advance _ _ h := h
  finish _ h := h
  pin _ h hst := (State.pin_frame hst).1.trans h

/-- Settles O52: every part of a step keeps CFG. -/
theorem noStepWritesTheConfiguration : Obligations.NoStepWritesTheConfiguration :=
  fun s _ => (cfg_kept s.cfg).step rfl

/-! ## Life -/

/-- What is left of a state whose input was taken is that state but for the inputs. -/
theorem State.fetch_rest {s r : State} (h : (∃ w, s.fetch = .word w r) ∨ s.fetch = .reset r ∨ s.fetch = .nothing r) :
    r = { s with host := r.host, prim := r.prim } := by
  have hover : s.fetch = s.fetch.over s := State.fetch_eq_over rfl rfl rfl
  obtain ⟨w, h⟩ | h | h := h <;> rw [h] at hover
  · exact (Fetched.word.inj hover).2
  · exact Fetched.reset.inj hover
  · exact Fetched.nothing.inj hover

/-- Only the reset input is taken as such. -/
theorem State.host_of_fetch_reset {s r : State} (h : s.fetch = .reset r) : ∃ rest, s.host = .rst :: rest := by
  obtain ⟨p, -, -, h'⟩ | ⟨-, h'⟩ := State.fetch_cases s <;> rw [h'] at h
  · cases h
  obtain ⟨-, h'⟩ | ⟨w, txt, rest, -, -, h'⟩ | ⟨w, txt, rest, -, -, h'⟩ | ⟨w, rest, -, h'⟩ | ⟨rest, hhost, -⟩ |
    ⟨rest, -, h'⟩ := State.fetchHost_cases s
  pick_goal 5
  · exact ⟨rest, hhost⟩
  all_goals rw [h'] at h; cases h

/-- R15, R127: the sequencer makes life Active with the last assignment of an INIT or at its end, and else leaves it. -/
theorem State.tick_life {s t : State} (h : s.tick = .next t) :
    t.life = s.life ∨ (t.life = .active ∧ s.busy = true ∧ ∃ l, s.phase = .running true l ∧ l.length ≤ 1) := by
  obtain ⟨-, h'⟩ | ⟨hb, isInit, a, rest, hp, h'⟩ | ⟨hb, isInit, hp, h'⟩ | ⟨-, -, h'⟩ := State.tick_cases s <;>
    rw [h'] at h
  · cases h; exact .inl rfl
  · have hlife : t.life = if isInit && rest.isEmpty then .active else s.life := (State.pin_frame h).2.1
    cases hlast : isInit && rest.isEmpty with
    | false => exact .inl (by simpa [hlast] using hlife)
    | true =>
      obtain ⟨rfl, hrest⟩ : isInit = true ∧ rest = [] := by simpa using hlast
      subst hrest
      exact .inr ⟨by simpa using hlife, hb, _, hp, Nat.le_refl 1⟩
  · cases h
    cases isInit with
    | false => exact .inl rfl
    | true => exact .inr ⟨rfl, hb, _, hp, Nat.zero_le 1⟩
  · cases h; exact .inl rfl

/-- Settles O53: an instruction keeps life, the reset input clears it, and the sequencer moves it by `State.tick_life`. -/
theorem lifeMovesOnlyByInitAndReset : Obligations.LifeMovesOnlyByInitAndReset := by
  intro s t h
  obtain ⟨w, r, i, hf, -, he⟩ | ⟨r, hf, rfl⟩ | ⟨r, hf, ht⟩ := step_cases h
  · obtain ⟨e, rfl⟩ := exec_next_effect he
    rw [State.fetch_rest (.inl ⟨w, hf⟩)]
    exact .inl (e.apply_life _)
  · exact .inr (.inr ⟨rfl, State.host_of_fetch_reset hf⟩)
  · have hr := State.fetch_rest (.inr (.inr hf))
    have hmove := State.tick_life ht
    rw [hr] at hmove
    exact hmove.imp_right .inl

/-! ## INIT's last commit -/

theorem step_of_hostWaits {s : State} (hb : s.busy = true) (hw : s.hostWaits = true) : step s = s.tick := by
  refine step_of_busy hb ?_
  unfold State.hostWaits at hw
  split at hw
  case h_1 h => exact .inl h
  case h_2 w txt rest h => exact .inr ⟨w, txt, rest, h⟩
  all_goals cases hw

theorem State.tick_cons {s : State} {isInit : Bool} {a : Assign} {l : List Assign} (hb : s.busy = true)
    (hp : s.phase = .running isInit (a :: l)) : s.tick = (s.advance isInit l).pin a := by
  simp [State.tick, hb, hp]

theorem State.tick_nil {s : State} {isInit : Bool} (hb : s.busy = true) (hp : s.phase = .running isInit []) :
    s.tick = .next (s.finish isInit) := by
  simp [State.tick, hb, hp]

/-- Settles O60: the host waiting, the step is the sequencer's, which writes life before the pin assignment. -/
theorem lifeIsActiveFromTheLastCommitOfInit : Obligations.LifeIsActiveFromTheLastCommitOfInit := by
  intro s hb hw
  rw [step_of_hostWaits hb hw]
  refine ⟨fun hp hcs hn => ?_, fun hp => State.tick_nil hb hp, fun isInit a b rest t hp ht => ?_⟩
  · have hn : (s.advance true []).count = frameBits := hn
    rw [State.tick_cons hb hp, State.pin_cs_rise (s := s.advance true []) hcs, if_pos hn]
    refine ⟨_, rfl, ?_, ?_, ?_⟩
    · simp
    · simp [hb]
    · simp [State.srFrame_eq]
  · rw [State.tick_cons hb hp] at ht
    simpa using (State.pin_frame ht).2.1

/-! ## REG and the sink's registers -/

/-- R28: the frame level commits as the pin level does. -/
theorem State.emit_reg (f : Frame) (s : State) (a : Byte) :
    (s.emit f).reg a = if a = f.opcode then f.data else s.reg a :=
  State.commit_reg f s a

theorem State.emits_append (fs gs : List Frame) (s : State) :
    State.emits (fs ++ gs) s = State.emits gs (State.emits fs s) := List.foldl_append ..

theorem State.emits_reg_of_forall_ne {fs : List Frame} {a : Byte} (h : ∀ f ∈ fs, f.opcode ≠ a) (s : State) :
    (State.emits fs s).reg a = s.reg a := by
  induction fs generalizing s with
  | nil => rfl
  | cons f rest ih =>
    obtain ⟨hf, hrest⟩ := List.forall_mem_cons.1 h
    calc (State.emits (f :: rest) s).reg a
        _ = (s.emit f).reg a := ih hrest (s.emit f)
        _ = s.reg a := by rw [State.emit_reg, if_neg (Ne.symm hf)]

/-- Settles O32: by induction on the frames. -/
theorem framesWriteOnlyTheirRegisters : Obligations.FramesWriteOnlyTheirRegisters := by
  intro fs s a
  refine ⟨fun h => State.emits_reg_of_forall_ne h s, fun v => ?_⟩
  rw [State.emits_append]
  exact (State.emit_reg ⟨a, v⟩ _ a).trans (if_pos rfl)

/-- U4: a frame to a named address writes the register it addresses and no other. -/
theorem contentAfter_cons_of_named {cfg : Cfg} {f : Frame} (h : cfg.named f.opcode = true) (a : Byte) (older : List Frame) :
    contentAfter cfg a (f :: older) = if f.opcode = a then f.data else contentAfter cfg a older := if_pos h

theorem State.emit_content {s : State} {f : Frame} (h : s.cfg.named f.opcode = true) (a : Byte) :
    (s.emit f).content a = if f.opcode = a then f.data else s.content a := by
  rw [State.content, State.emit_frames, List.reverse_append]
  exact contentAfter_cons_of_named h a _

theorem Cfg.named_opIntensity (cfg : Cfg) : cfg.named cfg.opIntensity = true := by
  simp [Cfg.named, Cfg.controlOps]

/-- Settles O40: OP_INTENSITY is a named address, so that its register holds the frame's data. -/
theorem brightnessIsTheLowFourBits : Obligations.BrightnessIsTheLowFourBits := by
  rintro level s _ rfl
  have hint : (State.emits [⟨s.cfg.opIntensity, level⟩] s).intensity = level :=
    (State.emit_content (f := ⟨s.cfg.opIntensity, level⟩) (Cfg.named_opIntensity s.cfg) _).trans (if_pos rfl)
  refine ⟨hint, ?_⟩
  rw [State.brightness, hint, BitVec.extractLsb'_toNat, Nat.shiftRight_zero]

/-- R28: where every frame went to a named address, a register holds the data of its last frame or its reset value. -/
theorem contentAfter_eq_lastData {cfg : Cfg} (a : Byte) {fs : List Frame} (h : ∀ f ∈ fs, cfg.named f.opcode = true) :
    contentAfter cfg a fs.reverse = (lastData a fs).getD (Config.sinkPowerUp a) := by
  induction fs using List.reverseRecOn with
  | nil => rfl
  | append_singleton fs f ih =>
    obtain ⟨hfs, hf⟩ := List.forall_mem_append.1 h
    rw [List.reverse_append, lastData_append]
    refine (contentAfter_cons_of_named (hf f (List.mem_singleton_self f)) a _).trans ?_
    by_cases ha : f.opcode = a
    · simp [ha]
    · simpa [ha] using ih hfs

/-- Settles O41: by induction on the history, its last frame first. -/
theorem contentFollowsTheRecord : Obligations.ContentFollowsTheRecord := by
  intro s a hrec hnamed
  rw [State.content, contentAfter_eq_lastData a hnamed]
  exact (hrec a).2.symm

/-! ## Reset -/

/-- R82, D6: code 0 is in no table. -/
theorem lookup_zero (font : List FontEntry) : lookup font 0 = none := by
  induction font with
  | nil => rfl
  | cons e rest ih =>
    by_cases h : e.code = 0
    · exact if_pos h
    · exact (if_neg h).trans ((if_neg h).trans ih)

theorem encodeChar_zero (cfg : Cfg) (dp : Bool) : encodeChar cfg 0 dp = blank := by
  have hremap : (remap 0 dp).1 = 0 := rfl
  rw [encodeChar, hremap, lookup_zero]
  rfl

/-- Settles O51: each invariant at the values of R30; the ENC port because code 0 is a miss (`encodeChar_zero`). -/
theorem invariantsHoldAtReset : Obligations.InvariantsHoldAtReset := by
  refine ⟨Memory.reset_wf, ⟨rfl, rfl, rfl⟩, ⟨rfl, rfl, rfl⟩, rfl, State.recordsFrames_reset, ?_,
    State.storageBounded_reset, nofun⟩
  exact (encodeChar_zero resetCfg false).symm

/-- Settles O59: by the definition of the reset state. -/
theorem resetLeavesTheStatedValues : Obligations.ResetLeavesTheStatedValues :=
  ⟨rfl, rfl, rfl, rfl, rfl, rfl, rfl, rfl, rfl⟩

end Sys2Proof.Machine

namespace Sys2Proof.Machine

/-! ## The bracket rule over assignment lists -/

/-- A list that obeys the bracket rule ends outside a bracket, so that another may follow it. -/
theorem bracketed_append {inside : Option Nat} {l : List Assign} (h : bracketed inside l = true) (m : List Assign) :
    bracketed inside (l ++ m) = bracketed none m := by
  induction inside, l using bracketed.induct with
  | case1 => rfl
  | case2 k => cases h
  | case3 v rest ih => exact ih h
  | case4 v rest => cases h
  | case5 v rest => cases h
  | case6 k v rest ih =>
    have h : (v && k == 16 && bracketed none rest) = true := h
    obtain ⟨hclose, hrest⟩ := Bool.and_eq_true_iff.1 h
    have happ : bracketed (some k) (⟨.cs, v⟩ :: rest ++ m) = (v && k == 16 && bracketed none (rest ++ m)) := rfl
    rw [happ, hclose, Bool.true_and, ih hrest]
  | case7 k v rest ih => exact ih h
  | case8 k v rest ih => exact ih h

/-- R124: the 24 assignments of a byte raise CLK eight times. -/
theorem bracketed_shiftPins (k : Nat) (b : Byte) (l : List Assign) :
    bracketed (some k) (shiftPins b ++ l) = bracketed (some (k + 8)) l := rfl

theorem bracketed_framePins (f : Frame) : bracketed none (framePins f) = true := by
  have hopen : bracketed none (framePins f) =
      bracketed (some 0) (shiftPins f.opcode ++ (shiftPins f.data ++ [⟨.cs, true⟩])) := by
    rw [← List.append_assoc]; rfl
  rw [hopen, bracketed_shiftPins, bracketed_shiftPins]
  rfl

theorem bracketed_pinsOf (fs : List Frame) : bracketed none (pinsOf fs) = true := by
  induction fs with
  | nil => rfl
  | cons f rest ih => exact (bracketed_append (bracketed_framePins f) _).trans ih

/-- R90: the `(CS,1)` before INIT's frames stands outside every bracket. -/
theorem bracketed_initPins (cfg : Cfg) : bracketed none (initPins cfg) = true := bracketed_pinsOf (initFrames cfg)

/-- Settles O17: each frame is one bracket, by induction on the frames. -/
theorem commandListsAreBracketed : Obligations.CommandListsAreBracketed := ⟨bracketed_pinsOf, bracketed_initPins⟩

/-! ## The bracket rule along a run -/

theorem State.wireBracketed_idle {s : State} (hp : s.phase = .idle) :
    s.WireBracketed ↔ s.prim = none ∧ s.busy = false ∧ bracketed none s.wire = true := by
  simp [State.WireBracketed, hp]

theorem State.wireBracketed_running {s : State} {isInit : Bool} {l : List Assign} (hp : s.phase = .running isInit l) :
    s.WireBracketed ↔ s.prim = none ∧ s.busy = true ∧ bracketed none (s.wire ++ l) = true := by
  simp [State.WireBracketed, hp]

theorem State.WireBracketed.phase_of_free {s : State} (h : s.WireBracketed) (hb : s.busy = false) : s.phase = .idle := by
  cases hp : s.phase with
  | idle => rfl
  | running isInit l =>
    obtain ⟨-, hbusy, -⟩ := (State.wireBracketed_running hp).1 h
    rw [hb] at hbusy
    cases hbusy

/-- A free block takes up a list that obeys the rule. -/
theorem State.WireBracketed.start {s : State} (h : s.WireBracketed) (hb : s.busy = false) (isInit : Bool)
    {l : List Assign} (hl : bracketed none l = true) : (s.start isInit l).WireBracketed := by
  obtain ⟨hprim, -, hwire⟩ := (State.wireBracketed_idle (h.phase_of_free hb)).1 h
  cases l with
  | nil => exact ⟨hprim, rfl, hwire⟩
  | cons a rest => exact ⟨hprim, rfl, (bracketed_append hwire _).trans hl⟩

/-- An accepted command answers what it does to the free block, with err at 0 (R146); on a busy block it waits (R148). -/
theorem State.accept_next {s t : State} {f : State → Outcome} (h : s.accept f = .next t) :
    t = s ∨ (s.busy = false ∧ f { s with err := false } = .next t) := by
  by_cases hb : s.busy = true
  · rw [State.accept_busy f hb] at h
    exact .inl (Host.Outcome.next.inj h).symm
  · rw [Bool.not_eq_true] at hb
    exact .inr ⟨hb, (State.accept_idle f hb).symm.trans h⟩

/-- A word that is run to a next state is an instruction's. -/
theorem State.run_next {s t : State} {w : InstrWord} (h : s.run w = .next t) :
    ∃ i, decode s.cfg w = .ok i ∧ exec i s = .next t := by
  unfold State.run at h
  split at h
  · next i hd => exact ⟨i, hd, h⟩
  · cases h

/-- A command port's word decodes to a host command, never to a primitive (R9, R65). -/
theorem isCommand_of_decodeCmd {w : BitVec 25} {txt : List Byte} {i : Instr} (h : decodeCmd w txt = .ok i) :
    isCommand i = true := by
  unfold decodeCmd at h
  split_ifs at h <;> cases h <;> rfl

/-- A command whose meaning is to take up a list that obeys the rule. -/
theorem State.WireBracketed.accept_start {s t : State} (h : s.WireBracketed) {isInit : Bool} {l : State → List Assign}
    (hl : ∀ u, bracketed none (l u) = true) (hst : s.accept (fun u => .next (u.start isInit (l u))) = .next t) :
    t.WireBracketed := by
  obtain rfl | ⟨hb, hst⟩ := State.accept_next hst
  · exact h
  · cases hst
    exact State.WireBracketed.start (s := { s with err := false }) h hb isInit (hl _)

/-- R127: the acceptance of a host command puts its list of frames after WIRE. -/
theorem State.WireBracketed.exec {s t : State} (h : s.WireBracketed) {i : Instr} (hi : isCommand i = true)
    (hst : Machine.exec i s = .next t) : t.WireBracketed := by
  cases i with
  | init => exact h.accept_start (fun _ => bracketed_initPins _) hst
  | setBright level => exact h.accept_start (fun _ => bracketed_pinsOf _) hst
  | clear => exact h.accept_start (fun _ => bracketed_pinsOf _) hst
  | dispChar d c dp =>
    unfold Machine.exec execDispChar at hst
    obtain rfl | ⟨hb, hst⟩ := State.accept_next hst
    · exact h
    · split at hst <;> cases hst
      · exact h
      · exact State.WireBracketed.start (s := { s with err := false }) h hb false (bracketed_pinsOf _)
  | dispText text justify =>
    unfold Machine.exec execDispText at hst
    obtain rfl | ⟨hb, hst⟩ := State.accept_next hst
    · exact h
    · cases hst
      exact State.WireBracketed.start (s := { s with err := false, tb := _, pl := _ }) h hb false (bracketed_pinsOf _)
  | _ => cases hi

/-- R127: the sequencer moves the head of its list to the end of WIRE. -/
theorem State.WireBracketed.tick {s t : State} (h : s.WireBracketed) (hst : s.tick = .next t) : t.WireBracketed := by
  obtain ⟨-, h'⟩ | ⟨hb, isInit, a, rest, hp, h'⟩ | ⟨hb, isInit, hp, h'⟩ | ⟨hb, hp, -⟩ := State.tick_cases s
  · rw [h'] at hst; cases hst; exact h
  · rw [h'] at hst
    obtain ⟨hprim, -, hwire⟩ := (State.wireBracketed_running hp).1 h
    obtain ⟨-, -, hbusy, hphase, -, -, -, -, -, -, -, hprim'⟩ := State.pin_frame hst
    obtain ⟨-, -, -, hwire'⟩ := State.pin_lines hst
    refine (State.wireBracketed_running hphase).2 ⟨hprim'.trans hprim, hbusy.trans hb, ?_⟩
    rw [hwire', State.advance_wire, List.append_assoc]
    exact hwire
  · rw [h'] at hst; cases hst
    obtain ⟨hprim, -, hwire⟩ := (State.wireBracketed_running hp).1 h
    rw [List.append_nil] at hwire
    exact ⟨hprim, rfl, hwire⟩
  · obtain ⟨-, hfree, -⟩ := (State.wireBracketed_idle hp).1 h
    rw [hb] at hfree
    cases hfree

theorem State.fetch_of_prim_none {s : State} (h : s.prim = none) : s.fetch = s.fetchHost := by
  obtain ⟨p, -, hp, -⟩ | ⟨-, hf⟩ := State.fetch_cases s
  · rw [h] at hp; cases hp
  · exact hf

/-- Settles O45: with no primitive waiting, a step is the host's input or the sequencer's. -/
theorem stepKeepsTheBracketRule : Obligations.StepKeepsTheBracketRule := by
  intro s t hs h
  have ⟨hprim, _⟩ := hs
  unfold step at h
  rw [State.fetch_of_prim_none hprim] at h
  obtain ⟨-, h'⟩ | ⟨w, txt, rest, -, -, h'⟩ | ⟨w, txt, rest, -, -, h'⟩ | ⟨w, rest, -, h'⟩ | ⟨rest, -, h'⟩ |
    ⟨rest, -, h'⟩ := State.fetchHost_cases s <;> rw [h'] at h
  · exact hs.tick h
  · exact hs.tick h
  · obtain ⟨i, hd, he⟩ := State.run_next h
    exact State.WireBracketed.exec (s := { s with host := rest }) hs (isCommand_of_decodeCmd hd) he
  · cases h; exact hs
  · cases h; exact ⟨rfl, rfl, rfl⟩
  · exact State.WireBracketed.tick (s := { s with host := rest }) hs h

/-! ## The register space -/

theorem sinkCanonical_kept : Kept fun s => Memory.wf s.sink = true where
  takes _ _ h := h
  effect {s} e h := (congrArg Memory.wf (e.apply_sink s)).trans h
  restart _ := Memory.reset_wf
  advance _ _ h := h
  finish _ h := h
  pin {s t} a h hst := by
    have hdrive : Memory.wf (s.drive a).sink = true := by rwa [State.drive_sink]
    obtain rfl | rfl | rfl | ⟨f, rfl⟩ := State.pin_next hst
    · exact hdrive
    · exact hdrive
    · exact hdrive
    · exact State.commit_wf f _ hdrive

/-- Settles O42: a commit alone writes the register space, at an address that is a byte (`State.commit_wf`). -/
theorem stepKeepsTheSinkCanonical : Obligations.StepKeepsTheSinkCanonical :=
  fun _ _ => sinkCanonical_kept.step

/-! ## The addresses of the commands -/

theorem opcode_of_mem_charFrames {cfg : Cfg} {d c : Byte} {dp : Bool} {f : Frame} (h : f ∈ charFrames cfg d c dp) :
    f.opcode = d + 1 := by
  unfold charFrames at h
  split at h
  · cases h
  · rw [List.mem_singleton.1 h]; rfl

/-- R101: an index in range addresses a digit register. -/
theorem digit_of_mem_charFrames {cfg : Cfg} {d c : Byte} {dp : Bool} {f : Frame} (hd : d ≤ 7)
    (h : f ∈ charFrames cfg d c dp) : 1 ≤ f.opcode ∧ f.opcode ≤ 8 := by
  rw [opcode_of_mem_charFrames h]
  bv_omega

/-- R113, R114: no pair of at most eight goes past digit 7, under either justification. -/
theorem digitOf_le (justify : Bool) {y : Nat} (x : Nat) (hy : y ≤ 8) : digitOf justify y x ≤ 7 := by
  unfold digitOf
  split <;> omega

/-- R116: DISPTEXT writes digit registers only. -/
theorem digit_of_mem_textFrames {cfg : Cfg} {pl : List Pair} {justify : Bool} {f : Frame} (hpl : pl.length ≤ 8)
    (h : f ∈ textFrames cfg pl justify) : 1 ≤ f.opcode ∧ f.opcode ≤ 8 := by
  obtain ⟨⟨p, x⟩, -, hf⟩ := List.mem_flatMap.1 h
  refine digit_of_mem_charFrames ?_ hf
  have hd : digitOf justify pl.length x ≤ 7 := digitOf_le justify x hpl
  bv_omega

theorem digit_of_mem_clearFrames {f : Frame} (h : f ∈ clearFrames) : 1 ≤ f.opcode ∧ f.opcode ≤ 8 := by
  have hall : ∀ f ∈ clearFrames, 1 ≤ f.opcode ∧ f.opcode ≤ 8 := by decide
  exact hall f h

theorem named_of_mem_initFrames {cfg : Cfg} {f : Frame} (h : f ∈ initFrames cfg) :
    (1 ≤ f.opcode ∧ f.opcode ≤ 8) ∨ f.opcode ∈ cfg.controlOps := by
  obtain hctl | hlast := List.mem_append.1 h
  · obtain hctl | hclear := List.mem_append.1 hctl
    · right
      have hop : f.opcode ∈ [cfg.opScanLimit, cfg.opDecodeMode, cfg.opShutdown, cfg.opDisplayTest] :=
        List.mem_map_of_mem (f := Frame.opcode) hctl
      simp only [Cfg.controlOps, List.mem_cons] at hop ⊢
      tauto
    · exact .inl (digit_of_mem_clearFrames hclear)
  · right
    rw [List.mem_singleton.1 hlast]
    simp [Cfg.controlOps]

/-- Settles O33: row by row of R50; beyond 7 the index plus one is 9 to 255, or 0 by the wrap of R101. -/
theorem commandsWriteOnlyTheirAddresses : Obligations.CommandsWriteOnlyTheirAddresses := by
  intro cfg
  refine ⟨fun f => named_of_mem_initFrames, fun level => ⟨nofun, fun f hf => ?_⟩, fun f => digit_of_mem_clearFrames,
    fun text justify f => digit_of_mem_textFrames (layout_length_le _), fun d c dp hd f => digit_of_mem_charFrames hd,
    fun d c dp hd f hf => ?_⟩
  · rw [List.mem_singleton.1 hf]
  · rw [opcode_of_mem_charFrames hf]
    bv_omega

/-! ## A frame on the wires -/

theorem State.pins_append_next {l : List Assign} {s t : State} (h : s.pins l = .next t) (m : List Assign) :
    s.pins (l ++ m) = t.pins m := by
  rw [State.pins_append, h]

theorem State.pins_singleton {a : Assign} {s t : State} (h : s.pin a = .next t) : s.pins [a] = .next t := by
  rw [State.pins, h]
  rfl

/-- R124, R132: inside a frame the three assignments of a bit sample it. -/
theorem State.pins_bitPins {s : State} (hcs : s.cs = false) (hclk : s.clk = false) (b : Bool) :
    s.pins (bitPins b) = .next { s with
      data := b, sr := BitVec.ofNat 16 (2 * s.sr.toNat + b.toNat), count := s.count + 1,
      wire := s.wire ++ bitPins b } := by
  simp [State.pins, bitPins, State.pin_data, State.pin_clk_rise, State.pin_clk_quiet, State.drive, State.sample, hcs,
    hclk, shiftIn_eq_ofNat]

/-- The number a list of bits makes of `n` when they are shifted in below it, the first bit ending up highest. -/
def shiftInBits (n : Nat) (bits : List Bool) : Nat := bits.foldl (fun n b => 2 * n + b.toNat) n

theorem ofNat_shiftIn_congr {sr : BitVec 16} {n : Nat} (h : sr = BitVec.ofNat 16 n) (b : Bool) :
    BitVec.ofNat 16 (2 * sr.toNat + b.toNat) = BitVec.ofNat 16 (2 * n + b.toNat) := by
  subst h
  apply BitVec.eq_of_toNat_eq
  simp only [BitVec.toNat_ofNat]
  omega

/-- R132: a list of bits, each shifted in below those before it. -/
theorem State.pins_bits {s : State} (hcs : s.cs = false) (hclk : s.clk = false) {n : Nat} (hsr : s.sr = BitVec.ofNat 16 n)
    (bits : List Bool) :
    s.pins (bits.flatMap bitPins) = .next { s with
      data := bits.getLastD s.data, sr := BitVec.ofNat 16 (shiftInBits n bits), count := s.count + bits.length,
      wire := s.wire ++ bits.flatMap bitPins } := by
  induction bits generalizing s n with
  | nil => simp [State.pins, shiftInBits, ← hsr]
  | cons b rest ih =>
    rw [List.flatMap_cons, State.pins_append_next (State.pins_bitPins hcs hclk b)]
    refine (ih (s := { s with data := b, sr := _, count := _, wire := _ }) hcs hclk (ofNat_shiftIn_congr hsr b)).trans ?_
    simp [shiftInBits, Nat.add_assoc, Nat.add_comm 1, List.getLast?_cons]

/-- The bits of a byte in the order SHIFTOUT sends them (R124). -/
def msbFirst (b : Byte) : List Bool := [7, 6, 5, 4, 3, 2, 1, 0].map fun i => b.getLsbD i

theorem shiftPins_eq (b : Byte) : shiftPins b = (msbFirst b).flatMap bitPins := rfl

theorem shiftInBits_msbFirst (n : Nat) (b : Byte) : shiftInBits n (msbFirst b) = 256 * n + b.toNat := by
  have hbit (i : Nat) : (b.getLsbD i).toNat = b.toNat / 2 ^ i % 2 := Nat.toNat_testBit ..
  have hb : b.toNat < 256 := b.isLt
  simp only [shiftInBits, msbFirst, List.map_cons, List.map_nil, List.foldl_cons, List.foldl_nil, hbit]
  omega

/-- What SHIFTOUT makes of a state inside a frame (R124, R132). -/
def State.shiftByte (b : Byte) (s : State) : State :=
  { s with
    data := b.getLsbD 0, sr := BitVec.ofNat 16 (256 * s.sr.toNat + b.toNat), count := s.count + 8,
    wire := s.wire ++ shiftPins b }

theorem State.pins_shiftPins {s : State} (hcs : s.cs = false) (hclk : s.clk = false) (b : Byte) :
    s.pins (shiftPins b) = .next (s.shiftByte b) := by
  have hsr : s.sr = BitVec.ofNat 16 s.sr.toNat := by simp
  rw [shiftPins_eq, State.pins_bits hcs hclk hsr, shiftInBits_msbFirst]
  rfl

theorem Frame.word_toNat (f : Frame) : f.word.toNat = 256 * f.opcode.toNat + f.data.toNat := by
  rw [Frame.word, BitVec.toNat_append, ← Nat.shiftLeft_add_eq_or_of_lt f.data.isLt, Nat.shiftLeft_eq, Nat.mul_comm]

/-- Sixteen bits shifted in leave nothing of the old SR. -/
theorem ofNat_shiftIn_frame (n : Nat) (f : Frame) :
    BitVec.ofNat 16 (256 * (BitVec.ofNat 16 (256 * n + f.opcode.toNat)).toNat + f.data.toNat) = f.word := by
  apply BitVec.eq_of_toNat_eq
  have hop : f.opcode.toNat < 256 := f.opcode.isLt
  have hdata : f.data.toNat < 256 := f.data.isLt
  rw [Frame.word_toNat, BitVec.toNat_ofNat, BitVec.toNat_ofNat]
  omega

/-- What the two bytes of a frame make of a state inside a frame (R123, R132). -/
def State.shiftFrame (f : Frame) (s : State) : State :=
  { s with
    data := f.data.getLsbD 0, sr := f.word, count := s.count + 16,
    wire := s.wire ++ (shiftPins f.opcode ++ shiftPins f.data) }

theorem State.pins_shiftFrame {s : State} (hcs : s.cs = false) (hclk : s.clk = false) (f : Frame) :
    s.pins (shiftPins f.opcode ++ shiftPins f.data) = .next (s.shiftFrame f) := by
  rw [State.pins_append_next (State.pins_shiftPins hcs hclk f.opcode),
    State.pins_shiftPins (s := s.shiftByte f.opcode) hcs hclk f.data]
  simp only [State.shiftByte, State.shiftFrame, ofNat_shiftIn_frame, List.append_assoc]

/-- R133: SR holding a frame's word, the frame in SR is that frame. -/
theorem State.srFrame_of_word {s : State} {f : Frame} (h : s.sr = f.word) : s.srFrame = f := by
  rw [State.srFrame, h, Frame.word, BitVec.extractLsb'_append_eq_left, BitVec.extractLsb'_append_eq_right]

/-- R133: with SR full, the rising edge of CS commits the frame. -/
theorem State.pins_close {s : State} (hcs : s.cs = false) (hcount : s.count = 0) (f : Frame) :
    (s.shiftFrame f).pins [⟨.cs, true⟩] = .next (((s.shiftFrame f).drive ⟨.cs, true⟩).commit f) := by
  have hn : (s.shiftFrame f).count = frameBits := by rw [State.shiftFrame, hcount]; rfl
  refine State.pins_singleton ((State.pin_cs_rise (s := s.shiftFrame f) hcs).trans ?_)
  rw [if_pos hn, State.srFrame_of_word rfl]

/-- R135: from between frames the 50 assignments of a frame are the frame. -/
theorem State.pins_framePins {s : State} (hcs : s.cs = true) (hclk : s.clk = false) (f : Frame) :
    s.pins (framePins f) = .next (s.emit f) := by
  have hpins : framePins f = [⟨.cs, false⟩] ++ (shiftPins f.opcode ++ shiftPins f.data ++ [⟨.cs, true⟩]) := by
    simp [framePins]
  have hfall := State.pins_singleton (State.pin_cs_fall hcs)
  have hbytes := State.pins_shiftFrame (s := (s.drive ⟨.cs, false⟩).receiverStart) rfl hclk f
  have hrise := State.pins_close (s := (s.drive ⟨.cs, false⟩).receiverStart) rfl rfl f
  rw [hpins, State.pins_append_next hfall, State.pins_append_next hbytes, hrise]
  simp [State.emit, State.commit, State.drive, State.receiverStart, State.shiftFrame, hcs, hpins, frameBits]

/-- R135 for the list of a whole command. -/
theorem State.pins_pinsOf {s : State} (hcs : s.cs = true) (hclk : s.clk = false) (fs : List Frame) :
    s.pins (pinsOf fs) = .next (State.emits fs s) := by
  induction fs generalizing s with
  | nil => rfl
  | cons f rest ih => exact (State.pins_append_next (State.pins_framePins hcs hclk f) _).trans (ih hcs hclk)

/-! ## The sequencer performs its list -/

theorem State.advance_drive (isInit : Bool) (rest : List Assign) (a : Assign) (s : State) :
    (s.advance isInit rest).drive a = (s.drive a).advance isInit rest := by
  unfold State.drive
  cases a.line <;> rfl

/-- The receiver works alike wherever the sequencer is, its fault included. -/
theorem State.pin_advance (isInit : Bool) (rest : List Assign) (a : Assign) (s : State) :
    (s.advance isInit rest).pin a = mapNext (State.advance isInit rest) (s.pin a) := by
  obtain ⟨line, v⟩ := a
  unfold State.pin State.receive
  rw [State.advance_drive]
  cases line with
  | data => rfl
  | clk => simp only [apply_ite (mapNext (State.advance isInit rest))]; rfl
  | cs => simp only [apply_ite (mapNext (State.advance isInit rest))]; rfl

/-- Where something is still to come, `advance` has not moved life yet. -/
theorem State.advance_advance_cons (isInit : Bool) (l : List Assign) (a : Assign) (m : List Assign) (s : State) :
    (s.advance isInit (a :: m)).advance isInit l = s.advance isInit l := by
  simp [State.advance]

theorem State.hostWaits_congr {s t : State} (h : t.host = s.host) : t.hostWaits = s.hostWaits := by
  unfold State.hostWaits
  rw [h]

/-- R127: the host waiting, as many steps as `l` is long perform `l` and leave `m`. -/
theorem State.steps_running {s : State} (hb : s.busy = true) (hw : s.hostWaits = true) (isInit : Bool)
    (l m : List Assign) :
    (s.advance isInit (l ++ m)).steps l.length = mapNext (State.advance isInit m) (s.pins l) := by
  induction l generalizing s with
  | nil => rfl
  | cons a rest ih =>
    have hstep : step (s.advance isInit (a :: rest ++ m)) =
        mapNext (State.advance isInit (rest ++ m)) (s.pin a) := by
      rw [step_of_hostWaits (s := s.advance isInit (a :: rest ++ m)) hb hw,
        State.tick_cons (s := s.advance isInit (a :: rest ++ m)) (l := rest ++ m) hb rfl, List.cons_append,
        State.advance_advance_cons, State.pin_advance]
    rw [List.length_cons, State.steps, hstep, State.pins]
    cases hpin : s.pin a with
    | next t =>
      obtain ⟨-, -, hbusy, -, -, -, -, -, -, -, hhost, -⟩ := State.pin_frame hpin
      exact ih (hbusy.trans hb) ((State.hostWaits_congr hhost).trans hw)
    | fault r => rfl
    | refused r => rfl

theorem State.emits_life (fs : List Frame) (s : State) : (State.emits fs s).life = s.life := by
  induction fs generalizing s with
  | nil => rfl
  | cons f rest ih => exact ih (s.emit f)

theorem pinsOf_append (fs gs : List Frame) : pinsOf (fs ++ gs) = pinsOf fs ++ pinsOf gs := List.flatMap_append ..

theorem pinsOf_eq_nil {fs : List Frame} : pinsOf fs = [] ↔ fs = [] := by
  rw [← List.length_eq_zero_iff, pinsOf_length]
  simp

/-- Settles O29: the sequencer performs the first k frames' lists (`State.steps_running`), which are those frames
(`State.pins_pinsOf`). -/
theorem framesOfACommandCommitOneByOne : Obligations.FramesOfACommandCommitOneByOne := by
  intro fs k isInit s hk hb hp hcs hclk hw
  by_cases hk0 : k = 0
  · subst hk0
    simp [State.steps, State.emits, ← hp]
  · have hne : fs ≠ [] := by rintro rfl; exact hk0 (Nat.le_zero.1 hk)
    have hself : s.advance isInit (pinsOf fs) = s := by
      simp [State.advance, pinsOf_eq_nil, hne, ← hp]
    have hsplit : pinsOf fs = pinsOf (fs.take k) ++ pinsOf (fs.drop k) := by
      rw [← pinsOf_append, List.take_append_drop]
    have hlen : (pinsOf (fs.take k)).length = 50 * k := by
      rw [pinsOf_length, List.length_take_of_le hk]
    have hlast : pinsOf (fs.drop k) = [] ↔ k = fs.length := by
      rw [pinsOf_eq_nil, List.drop_eq_nil_iff]
      omega
    have hrun := State.steps_running hb hw isInit (pinsOf (fs.take k)) (pinsOf (fs.drop k))
    rw [← hsplit, hself, hlen, State.pins_pinsOf hcs hclk] at hrun
    rw [hrun]
    simp [mapNext, State.advance, hlast, hk0, State.emits_life]

end Sys2Proof.Machine

namespace Sys2Proof.Machine

/-! ## The fields of the words

What the decoder takes out of a word the encoder put together is what was put in, field by field (R63, R65, R67). -/

@[simp] theorem cmdFlag_cmdWord (f : Bool) (op a b : Byte) : cmdFlag (cmdWord f op a b) = f := by
  rw [cmdFlag, cmdWord, BitVec.getLsbD_append, if_neg (by decide)]
  cases f <;> rfl

@[simp] theorem cmdOp_cmdWord (f : Bool) (op a b : Byte) : cmdOp (cmdWord f op a b) = op := by
  rw [cmdOp, cmdWord, BitVec.extractLsb'_append_eq_of_add_le (by decide), BitVec.extractLsb'_append_eq_left]

@[simp] theorem cmdA_cmdWord (f : Bool) (op a b : Byte) : cmdA (cmdWord f op a b) = a := by
  rw [cmdA, cmdWord, BitVec.extractLsb'_append_eq_of_add_le (by decide),
    BitVec.extractLsb'_append_eq_of_add_le (by decide), BitVec.extractLsb'_append_eq_left]

@[simp] theorem cmdB_cmdWord (f : Bool) (op a b : Byte) : cmdB (cmdWord f op a b) = b := by
  rw [cmdB, cmdWord, BitVec.extractLsb'_append_eq_of_add_le (by decide),
    BitVec.extractLsb'_append_eq_of_add_le (by decide), BitVec.extractLsb'_append_eq_right]

theorem encWord_char (c : Byte) (dp : Bool) : (BitVec.ofBool dp ++ c : BitVec 9).extractLsb' 0 8 = c :=
  BitVec.extractLsb'_append_eq_right

theorem encWord_flag (c : Byte) (dp : Bool) : (BitVec.ofBool dp ++ c : BitVec 9).getLsbD 8 = dp := by
  rw [BitVec.getLsbD_append, if_neg (by decide)]
  cases dp <;> rfl

/-! ## The text buffer -/

theorem readTxt_length (txt : List Byte) (len : Nat) : (readTxt txt len).length = len := by
  simp [readTxt]

/-- R66: a text given whole is read whole, with no byte of the free values. -/
theorem readTxt_self (txt : List Byte) : readTxt txt txt.length = txt := by
  refine List.ext_getElem (readTxt_length ..) fun i _ hi => ?_
  simp [readTxt, hi]

/-! ## The decoder, format by format -/

section
variable (cfg : Cfg) (f : Bool) (a b : Byte) (txt : List Byte)

theorem decode_init : decode cfg (.cmd (cmdWord f 1 a b) txt) = .ok .init := by
  simp [decode, decodeCmd]

theorem decode_setBright : decode cfg (.cmd (cmdWord f 2 a b) txt) = .ok (.setBright b) := by
  simp [decode, decodeCmd]

theorem decode_clear : decode cfg (.cmd (cmdWord f 3 a b) txt) = .ok .clear := by
  simp [decode, decodeCmd]

theorem decode_dispChar : decode cfg (.cmd (cmdWord f 4 a b) txt) = .ok (.dispChar a b f) := by
  simp [decode, decodeCmd]

theorem decode_dispText : decode cfg (.cmd (cmdWord f 5 a b) txt) = .ok (.dispText (readTxt txt a.toNat) f) := by
  simp [decode, decodeCmd]

end

/-- R66: `len` has room for the length of a text that passes the check. -/
theorem decode_dispText_of_length_le (cfg : Cfg) (f : Bool) {text : List Byte} (h : text.length ≤ 255) :
    decode cfg (.cmd (cmdWord f 5 (BitVec.ofNat 8 text.length) 0) text) = .ok (.dispText text f) := by
  have hlen : (BitVec.ofNat 8 text.length).toNat = text.length := Nat.mod_eq_of_lt (Nat.lt_succ_of_le h)
  rw [decode_dispText, hlen, readTxt_self]

theorem decode_encWord (cfg : Cfg) (c : Byte) (dp : Bool) :
    decode cfg (.enc (BitVec.ofBool dp ++ c)) = .ok (.encode c dp) := by
  rw [decode, encWord_char, encWord_flag]

theorem decode_wrreg (cfg : Cfg) (op data : Byte) : decode cfg (.call (op ++ data)) = .ok (.wrreg op data) := by
  rw [decode, BitVec.extractLsb'_append_eq_left, BitVec.extractLsb'_append_eq_right]

theorem decode_frame (cfg : Cfg) (op data : Byte) :
    decode cfg (.frame (op ++ data)) = .ok (decodeFrame cfg op data) := by
  rw [decode, BitVec.extractLsb'_append_eq_left, BitVec.extractLsb'_append_eq_right]

/-- R70: every other command code is refused by name. -/
theorem decode_cmd_of_other {w : BitVec 25} (h : (cmdOp w).toNat = 0 ∨ 5 < (cmdOp w).toNat) (cfg : Cfg)
    (txt : List Byte) :
    decode cfg (.cmd w txt) = .error (.notACommand (cmdOp w)) := by
  have hne (op : Byte) (h1 : 1 ≤ op.toNat) (h5 : op.toNat ≤ 5) : cmdOp w ≠ op := by
    rintro rfl
    omega
  simp [decode, decodeCmd, hne]

/-! ## The control opcodes -/

theorem Cfg.opsDistinct_iff (cfg : Cfg) :
    cfg.opsDistinct = true ↔ cfg.controlOps.Nodup ∧ ∀ op ∈ cfg.controlOps, ¬(1 ≤ op ∧ op ≤ 8) := by
  simp only [Cfg.opsDistinct, Bool.and_eq_true, decide_eq_true_iff, List.all_eq_true, Bool.not_eq_true',
    ← Bool.not_eq_true]

/-- R64: past the digit registers the decoder tries the five control opcodes. -/
theorem decodeFrame_of_not_digit (cfg : Cfg) {op : Byte} (h : ¬(1 ≤ op ∧ op ≤ 8)) (data : Byte) :
    decodeFrame cfg op data =
      if op = cfg.opDecodeMode then .wDecode data
      else if op = cfg.opIntensity then .wIntensity data
      else if op = cfg.opScanLimit then .wScanLim data
      else if op = cfg.opShutdown then .wShutdown data
      else if op = cfg.opDisplayTest then .wDispTest data
      else .wrreg op data := by
  have hne (digit : Byte) (hd : 1 ≤ digit ∧ digit ≤ 8) : op ≠ digit := by
    rintro rfl
    exact h hd
  unfold decodeFrame
  iterate 8 rw [if_neg (hne _ (by decide))]

/-- R64, R7: under distinct opcodes outside 1..8 the decoder tells the five control frames from all others. -/
theorem decodeFrame_controlOps {cfg : Cfg} (h : cfg.opsDistinct = true) (data : Byte) :
    decodeFrame cfg cfg.opDecodeMode data = .wDecode data ∧ decodeFrame cfg cfg.opIntensity data = .wIntensity data ∧
    decodeFrame cfg cfg.opScanLimit data = .wScanLim data ∧ decodeFrame cfg cfg.opShutdown data = .wShutdown data ∧
    decodeFrame cfg cfg.opDisplayTest data = .wDispTest data := by
  obtain ⟨hnodup, hdigit⟩ := (Cfg.opsDistinct_iff cfg).1 h
  have hframe := fun op hop => decodeFrame_of_not_digit cfg (hdigit op hop) data
  have hearlier : cfg.controlOps.Pairwise fun op later => ¬later = op := hnodup.imp Ne.symm
  simp only [Cfg.controlOps, List.forall_mem_cons] at hframe
  simp only [Cfg.controlOps, List.pairwise_cons, List.forall_mem_cons] at hearlier
  simp [hframe, hearlier]

/-- Settles O1: instruction by instruction, each by the decoder's equation for its format. -/
theorem decodeOfEncodeIsTheInstruction : Obligations.DecodeOfEncodeIsTheInstruction := by
  intro cfg i hops hwf
  cases i with
  | init => exact decode_init ..
  | setBright level => exact decode_setBright ..
  | clear => exact decode_clear ..
  | dispChar d c dp => exact decode_dispChar ..
  | dispText text justify => exact decode_dispText_of_length_le cfg justify (of_decide_eq_true hwf)
  | encode c dp => exact decode_encWord ..
  | wrreg op data => exact decode_wrreg ..
  | shiftOut b => rfl
  | wDig1 p => exact decode_frame ..
  | wDig2 p => exact decode_frame ..
  | wDig3 p => exact decode_frame ..
  | wDig4 p => exact decode_frame ..
  | wDig5 p => exact decode_frame ..
  | wDig6 p => exact decode_frame ..
  | wDig7 p => exact decode_frame ..
  | wDig8 p => exact decode_frame ..
  | wDecode d => simp [encode, decode_frame, decodeFrame_controlOps hops]
  | wIntensity d => simp [encode, decode_frame, decodeFrame_controlOps hops]
  | wScanLim d => simp [encode, decode_frame, decodeFrame_controlOps hops]
  | wShutdown d => simp [encode, decode_frame, decodeFrame_controlOps hops]
  | wDispTest d => simp [encode, decode_frame, decodeFrame_controlOps hops]

theorem wf_decodeFrame (cfg : Cfg) (op data : Byte) : (decodeFrame cfg op data).wf = true := by
  simp only [decodeFrame, apply_ite Instr.wf]
  simp only [Instr.wf, ite_self]

theorem wf_dispText_readTxt (txt : List Byte) (len : Byte) (justify : Bool) :
    (Instr.dispText (readTxt txt len.toNat) justify).wf = true := by
  have hlen : len.toNat < 256 := len.isLt
  simp only [Instr.wf, readTxt_length, decide_eq_true_eq]
  omega

theorem wf_of_decodeCmd {w : BitVec 25} {txt : List Byte} {i : Instr} (h : decodeCmd w txt = .ok i) : i.wf = true := by
  unfold decodeCmd at h
  split_ifs at h <;> cases h
  · rfl
  · rfl
  · rfl
  · rfl
  · exact wf_dispText_readTxt ..

/-- Settles O2: `len` is a byte, and only a text is checked. -/
theorem decodedInstructionIsWellFormed : Obligations.DecodedInstructionIsWellFormed := by
  intro cfg w i h
  cases w with
  | cmd w txt => exact wf_of_decodeCmd h
  | enc w => cases h; rfl
  | call w => cases h; rfl
  | frame w => cases h; exact wf_decodeFrame ..
  | byte b => cases h; rfl

/-- Settles O3: each word is put together from its fields. -/
theorem sampleWordsDecode : Obligations.SampleWordsDecode := by
  intro cfg txt
  exact ⟨decode_init cfg false 0 0 txt, decode_setBright cfg false 0 0x1F txt, decode_clear cfg false 0 0 txt,
    decode_dispChar cfg true 1 0x31 txt, decode_dispText cfg true 3 0 (0x31 :: 0x2E :: 0x35 :: txt),
    decode_encWord cfg 0x31 true, decode_wrreg cfg 0x01 0xB0, rfl, decode_frame cfg 8 0x30,
    decode_frame resetCfg 0x0A 0x03⟩

end Sys2Proof.Machine

namespace Sys2Proof.Machine

/-! ## A presented word is fetched, decoded and run -/

theorem State.run_of_decode {s : State} {w : InstrWord} {i : Instr} (h : decode s.cfg w = .ok i) :
    s.run w = exec i s := by
  rw [State.run, h]

/-- R148: a free block takes the host's command. -/
theorem step_of_cmd {s : State} {w : BitVec 25} {txt : List Byte} {rest : List HostInput} (hb : s.busy = false)
    (hp : s.prim = none) (hh : s.host = .cmd w txt :: rest) :
    step s = State.run (.cmd w txt) { s with host := rest } := by
  have hfetch : s.fetch = .word (.cmd w txt) { s with host := rest } := by
    simp [State.fetch, State.fetchHost, hb, hp, hh]
  rw [step, hfetch]

/-- R67: the ENC port is served with the sequencer left as it is. -/
theorem step_present_enc (v : BitVec 9) (s : State) :
    step (s.present (.enc v)) = State.run (.enc v) { s with prim := none } := by
  rw [step, State.fetch_of_prim_none (s := s.present (.enc v)) rfl]
  rfl

/-- Every other word is presented to a free block. -/
theorem step_present_of_ne_enc {w : InstrWord} (h : ∀ v, w ≠ .enc v) (s : State) :
    step (s.present w) = State.run w { s with busy := false, phase := .idle, prim := none } := by
  cases w with
  | enc v => exact absurd rfl (h v)
  | cmd word txt => rfl
  | call word => rfl
  | frame word => rfl
  | byte b => rfl

/-- Settles O5: the placed word is presented, and its decoding reads CFG alone. -/
theorem placedWordIsRunByTheNextStep : Obligations.PlacedWordIsRunByTheNextStep := by
  intro s nbits w iw i hrow hdecode
  have hplaced : s.withFetchWord nbits w = s.present iw := by rw [State.withFetchWord, hrow]
  rw [hplaced]
  refine ⟨?_, fun hne => ?_⟩
  · rintro v rfl
    exact (step_present_enc v s).trans (State.run_of_decode hdecode)
  · exact (step_present_of_ne_enc hne s).trans (State.run_of_decode hdecode)

/-- Settles O6: the word is fetched and the decoder refuses it; the unused fields are in no equation of the decoder. -/
theorem otherCommandCodesAreRefused : Obligations.OtherCommandCodesAreRefused := by
  refine ⟨fun s w txt rest hb hp hh hop => ?_, fun cfg txt txt' f a b => ?_⟩
  · rw [step_of_cmd hb hp hh, State.run, decode_cmd_of_other hop]
  · refine ⟨decode_init .., decode_setBright .., decode_clear .., decode_dispChar .., ?_, ?_⟩
    · rw [decode_dispText, decode_dispText]
    · rw [decode_dispChar, decode_dispChar]

/-! ## ENCODE -/

/-- R86: the direct-mapped ROM's word says hit or miss in bit 8, so that it gives ENCODE's pattern. -/
theorem encodeRom_eq_encodeChar (cfg : Cfg) (c : Byte) (dp : Bool) : encodeRom cfg c dp = encodeChar cfg c dp := by
  unfold encodeRom encodeChar romWord
  cases lookup cfg.font (remap c dp).1 with
  | none => rfl
  | some p =>
    have hhit : ((1 : BitVec 1) ++ p : BitVec 9).getLsbD 8 = true := encWord_flag p true
    have hpattern : ((1 : BitVec 1) ++ p : BitVec 9).extractLsb' 0 8 = p := encWord_char p true
    simp only [hhit, hpattern, if_true, patternOf]

/-- Settles O7: the two forms give one pattern, and the port's meaning is ENCODE's. -/
theorem encodePortGivesTheDirectMappedPattern : Obligations.EncodePortGivesTheDirectMappedPattern := by
  intro c dp s
  refine ⟨encodeRom_eq_encodeChar s.cfg c dp, ?_⟩
  rw [encodeRom_eq_encodeChar]
  rfl

/-- R69, R81: the remap leads out of 35..44, so that no code in there is looked up. -/
theorem remap_not_mem_range (c : Byte) (dp : Bool) : ¬(35 ≤ (remap c dp).1 ∧ (remap c dp).1 ≤ 44) := by
  have hrange : inRemap c = true ↔ 35 ≤ c ∧ c ≤ 44 := by
    rw [inRemap, Bool.and_eq_true, decide_eq_true_iff, decide_eq_true_iff]
    rfl
  unfold remap
  by_cases h : inRemap c = true
  · have hc := hrange.1 h
    simp only [h, if_true, remapAdd]
    bv_omega
  · rwa [if_neg h, ← hrange]

/-- Entries that a lookup passes over, having neither code 0 nor the code looked up, may be left out. -/
theorem lookup_filter {keep : FontEntry → Bool} {k : Byte} (h : ∀ e, keep e = false → e.code ≠ 0 ∧ e.code ≠ k)
    (font : List FontEntry) : lookup (font.filter keep) k = lookup font k := by
  induction font with
  | nil => rfl
  | cons e rest ih =>
    cases hkeep : keep e with
    | true => rw [List.filter_cons_of_pos hkeep, lookup, lookup, ih]
    | false =>
      obtain ⟨hzero, hk⟩ := h e hkeep
      rw [List.filter_cons_of_neg (by simp [hkeep]), lookup, if_neg hzero, if_neg hk, ih]

/-- Settles O10: the remap leads out of 35..44, so that the lookup passes over these entries. -/
theorem entriesInTheRemapRangeAreUnreachable : Obligations.EntriesInTheRemapRangeAreUnreachable := by
  intro cfg c dp
  have hpassed (e : FontEntry) (he : (!(35 ≤ e.code && e.code ≤ 44)) = false) :
      e.code ≠ 0 ∧ e.code ≠ (remap c dp).1 := by
    have hrange : 35 ≤ e.code ∧ e.code ≤ 44 := by simpa using he
    refine ⟨fun h => ?_, fun h => ?_⟩
    · rw [h] at hrange
      exact absurd hrange (by decide)
    · rw [h] at hrange
      exact remap_not_mem_range c dp hrange
  rw [encodeChar, encodeChar, lookup_filter hpassed]

/-! ## The ENC port -/

theorem whenFree_encPort {s t : State} {f : State → Outcome}
    (hf : ∀ u, f s = .next u → u.encIn = s.encIn ∧ u.encOut = s.encOut) (h : s.whenFree f = .next t) :
    t.encIn = s.encIn ∧ t.encOut = s.encOut := by
  cases hb : s.busy with
  | true =>
    rw [State.whenFree_busy f hb] at h
    cases h; exact ⟨rfl, rfl⟩
  | false => exact hf t ((State.whenFree_idle f hb).symm.trans h)

theorem accept_encPort {s t : State} {f : State → Outcome}
    (hf : ∀ u, f { s with err := false } = .next u → u.encIn = s.encIn ∧ u.encOut = s.encOut)
    (h : s.accept f = .next t) : t.encIn = s.encIn ∧ t.encOut = s.encOut :=
  whenFree_encPort hf h

theorem accept_start_encPort {s t : State} {isInit : Bool} {l : State → List Assign}
    (h : s.accept (fun u => .next (u.start isInit (l u))) = .next t) : t.encIn = s.encIn ∧ t.encOut = s.encOut :=
  accept_encPort (by rintro _ ⟨⟩; simp) h

theorem sendFrame_encPort {s t : State} {f : Frame} (h : s.sendFrame f = .next t) :
    t.encIn = s.encIn ∧ t.encOut = s.encOut :=
  whenFree_encPort (by rintro _ ⟨⟩; simp) h

theorem execDispChar_encPort {d c : Byte} {dp : Bool} {s t : State} (h : execDispChar d c dp s = .next t) :
    t.encIn = s.encIn ∧ t.encOut = s.encOut := by
  refine accept_encPort (fun u hu => ?_) h
  dsimp only at hu
  split at hu <;> cases hu
  · exact ⟨rfl, rfl⟩
  · simp

/-- R67: only ENCODE writes the ENC port. -/
theorem exec_encPort {i : Instr} {s t : State} (hi : ∀ c dp, i ≠ .encode c dp) (h : exec i s = .next t) :
    t.encIn = s.encIn ∧ t.encOut = s.encOut := by
  cases i with
  | init => exact accept_start_encPort (show execInit s = .next t from h)
  | setBright level => exact accept_start_encPort (show execSetBright level s = .next t from h)
  | clear => exact accept_start_encPort (show execClear s = .next t from h)
  | dispChar d c dp => exact execDispChar_encPort h
  | dispText text justify =>
    exact accept_encPort (by rintro _ ⟨⟩; simp) (show execDispText text justify s = .next t from h)
  | encode c dp => exact absurd rfl (hi c dp)
  | shiftOut b => exact whenFree_encPort (by rintro _ ⟨⟩; simp) (show execShiftOut b s = .next t from h)
  | _ => exact sendFrame_encPort h

theorem State.EncPortAgrees.congr {s t : State} (h : s.EncPortAgrees) (hcfg : t.cfg = s.cfg) (hin : t.encIn = s.encIn)
    (hout : t.encOut = s.encOut) : t.EncPortAgrees := by
  unfold State.EncPortAgrees
  rw [hcfg, hin, hout]
  exact h

theorem State.EncPortAgrees.exec {s t : State} (h : s.EncPortAgrees) {i : Instr} (hst : Machine.exec i s = .next t) :
    t.EncPortAgrees := by
  by_cases hi : ∃ c dp, i = .encode c dp
  · obtain ⟨c, dp, rfl⟩ := hi
    cases hst
    simp only [State.EncPortAgrees, encWord_char, encWord_flag]
  · obtain ⟨hin, hout⟩ := exec_encPort (fun c dp he => hi ⟨c, dp, he⟩) hst
    obtain ⟨e, rfl⟩ := exec_next_effect hst
    exact h.congr (e.apply_cfg s) hin hout

theorem State.EncPortAgrees.tick {s t : State} (h : s.EncPortAgrees) (hst : s.tick = .next t) : t.EncPortAgrees := by
  obtain ⟨-, h'⟩ | ⟨-, isInit, a, rest, -, h'⟩ | ⟨-, isInit, -, h'⟩ | ⟨-, -, h'⟩ := State.tick_cases s <;>
    rw [h'] at hst
  · cases hst; exact h
  · obtain ⟨hcfg, -, -, -, -, -, -, -, hin, hout, -, -⟩ := State.pin_frame hst
    exact h.congr hcfg hin hout
  · cases hst; exact h
  · cases hst; exact h

/-- Settles O48: a step runs an instruction, of which ENCODE alone writes the port and writes both its sides, or it is
the reset input, at which the port stands, or the sequencer's. -/
theorem stepKeepsTheEncPort : Obligations.StepKeepsTheEncPort := by
  intro s t hs h
  obtain ⟨w, r, i, hf, -, he⟩ | ⟨r, hf, rfl⟩ | ⟨r, hf, ht⟩ := step_cases h
  · rw [State.fetch_rest (.inl ⟨w, hf⟩)] at he
    exact State.EncPortAgrees.exec (s := { s with host := r.host, prim := r.prim }) hs he
  · rw [State.fetch_rest (.inr (.inl hf))]
    exact hs
  · rw [State.fetch_rest (.inr (.inr hf))] at ht
    exact State.EncPortAgrees.tick (s := { s with host := r.host, prim := r.prim }) hs ht

/-! ## A list of frames from acceptance to the end -/

theorem State.steps_add {s t : State} {k : Nat} (h : s.steps k = .next t) (m : Nat) : s.steps (k + m) = t.steps m := by
  induction k generalizing s with
  | zero =>
    cases h
    rw [Nat.zero_add]
  | succ k ih =>
    rw [Nat.succ_add, State.steps]
    rw [State.steps] at h
    cases hstep : step s with
    | next u => rw [hstep] at h; exact ih h
    | fault r => rw [hstep] at h; cases h
    | refused r => rw [hstep] at h; cases h

theorem State.steps_one (s : State) : s.steps 1 = step s := by
  rw [State.steps]
  cases step s with
  | next t => rfl
  | fault r => rfl
  | refused r => rfl

theorem State.ready_iff (s : State) :
    s.ready = true ↔ s.busy = false ∧ s.phase = .idle ∧ s.cs = true ∧ s.clk = false := by
  simp [State.ready, and_assoc]

theorem State.pins_busy_host {l : List Assign} {s t : State} (h : s.pins l = .next t) :
    t.busy = s.busy ∧ t.host = s.host := by
  induction l generalizing s with
  | nil => cases h; exact ⟨rfl, rfl⟩
  | cons a rest ih =>
    rw [State.pins] at h
    cases hpin : s.pin a with
    | next u =>
      rw [hpin] at h
      obtain ⟨hbusy, hhost⟩ := ih h
      obtain ⟨-, -, hbusy', -, -, -, -, -, -, -, hhost', -⟩ := State.pin_frame hpin
      exact ⟨hbusy.trans hbusy', hhost.trans hhost'⟩
    | fault r => rw [hpin] at h; cases h
    | refused r => rw [hpin] at h; cases h

/-- R127: the host waiting, the sequencer performs the list it took up, and one step more ends the command (log 13). -/
theorem State.steps_start {s t : State} (hw : s.hostWaits = true) (isInit : Bool) {l : List Assign} (hl : l ≠ [])
    (h : State.pins l { s with busy := true } = .next t) :
    (s.start isInit l).steps (l.length + 1) = .next (t.finish isInit) := by
  have hstart : s.start isInit l = State.advance isInit (l ++ []) { s with busy := true } := by
    obtain ⟨a, rest, rfl⟩ := List.exists_cons_of_ne_nil hl
    rw [List.append_nil, State.start_cons, State.advance_cons]
  have hrun : (s.start isInit l).steps l.length = .next (t.advance isInit []) := by
    rw [hstart, State.steps_running (s := { s with busy := true }) rfl hw, h]
    rfl
  obtain ⟨hbusy, hhost⟩ := State.pins_busy_host h
  have hwait : (t.advance isInit []).hostWaits = true := (State.hostWaits_congr hhost).trans hw
  rw [State.steps_add hrun, State.steps_one,
    step_of_hostWaits (s := t.advance isInit []) hbusy hwait, State.tick_nil (s := t.advance isInit []) hbusy rfl]
  cases isInit <;> rfl

/-! The frame level neither reads nor writes busy and phase. -/

theorem State.emits_busy (fs : List Frame) (s : State) : (State.emits fs s).busy = s.busy := by
  induction fs generalizing s with
  | nil => rfl
  | cons f rest ih => exact ih (s.emit f)

theorem State.emits_set_busy (fs : List Frame) (b : Bool) (s : State) :
    State.emits fs { s with busy := b } = { State.emits fs s with busy := b } := by
  induction fs generalizing s with
  | nil => rfl
  | cons f rest ih => exact ih (s.emit f)

theorem State.emits_phase (fs : List Frame) (s : State) : (State.emits fs s).phase = s.phase := by
  induction fs generalizing s with
  | nil => rfl
  | cons f rest ih => exact ih (s.emit f)

/-- R127, R135: taken up between commands, a list of frames runs to its end. -/
theorem State.steps_start_pinsOf {s : State} (hr : s.ready = true) (hw : s.hostWaits = true) (isInit : Bool)
    {fs : List Frame} (hfs : fs ≠ []) :
    (s.start isInit (pinsOf fs)).steps (50 * fs.length + 1) = .next ((State.emits fs s).finish isInit) := by
  obtain ⟨-, -, hcs, hclk⟩ := (State.ready_iff s).1 hr
  have hpins : State.pins (pinsOf fs) { s with busy := true } = .next (State.emits fs { s with busy := true }) :=
    State.pins_pinsOf (s := { s with busy := true }) hcs hclk fs
  rw [← pinsOf_length, State.steps_start hw isInit (pinsOf_eq_nil.not.2 hfs) hpins, State.emits_set_busy]
  rfl

/-- The end of a command that is not INIT changes nothing in a free state. -/
theorem State.finish_of_free {s : State} (hb : s.busy = false) (hp : s.phase = .idle) : s.finish false = s := by
  cases s
  cases hb
  cases hp
  rfl

/-- R122, R123: a frame sent by itself between commands. -/
theorem State.sendFrame_runs {s : State} (hr : s.ready = true) (hw : s.hostWaits = true) (f : Frame) :
    ∃ t, s.sendFrame f = .next t ∧ t.steps 51 = .next (State.emits [f] s) := by
  obtain ⟨hb, hp, -, -⟩ := (State.ready_iff s).1 hr
  have hpins : pinsOf [f] = framePins f := List.flatMap_singleton ..
  have hrun := State.steps_start_pinsOf hr hw false (List.cons_ne_nil f [])
  rw [hpins] at hrun
  refine ⟨_, State.whenFree_idle _ hb, hrun.trans ?_⟩
  rw [State.finish_of_free ((State.emits_busy ..).trans hb) ((State.emits_phase ..).trans hp)]

/-- Settles O27: each is one frame sent by itself. -/
theorem digitFramesRunToTheirEnd : Obligations.DigitFramesRunToTheirEnd := by
  intro p s hr hw e he
  simp only [List.mem_cons, List.not_mem_nil, or_false] at he
  obtain rfl | rfl | rfl | rfl | rfl | rfl | rfl | rfl := he <;> exact State.sendFrame_runs hr hw _

/-- Settles O28: each is one frame sent by itself. -/
theorem controlFramesRunToTheirEnd : Obligations.ControlFramesRunToTheirEnd := by
  intro d s hr hw e he
  simp only [List.mem_cons, List.not_mem_nil, or_false] at he
  obtain rfl | rfl | rfl | rfl | rfl := he <;> exact State.sendFrame_runs hr hw _

end Sys2Proof.Machine

namespace Sys2Proof.Machine

/-! ## The font lookup -/

/-- R82: in a table with no code 0 the scan meets no sentinel, so that it is the search for the first entry with the code. -/
theorem lookup_eq_find? {font : List FontEntry} (hzero : ∀ e ∈ font, e.code ≠ 0) (k : Byte) :
    lookup font k = (font.find? fun e => e.code == k).map FontEntry.pattern := by
  induction font with
  | nil => rfl
  | cons e rest ih =>
    obtain ⟨he, hrest⟩ := List.forall_mem_cons.1 hzero
    rw [lookup, if_neg he]
    by_cases hk : e.code = k
    · rw [if_pos hk, List.find?_cons_of_pos (by simpa using hk)]
      rfl
    · rw [if_neg hk, List.find?_cons_of_neg (by simpa using hk), ih hrest]

/-- R11 (b): the entry found by an entry's code is that entry, since no other has the code. -/
theorem find?_code_of_mem {font : List FontEntry} (hnodup : (font.map FontEntry.code).Nodup) {e : FontEntry}
    (he : e ∈ font) : (font.find? fun e' => e'.code == e.code) = some e := by
  have hsome : (font.find? fun e' => e'.code == e.code).isSome = true :=
    List.find?_isSome.2 ⟨e, he, beq_self_eq_true e.code⟩
  obtain ⟨e', hfound⟩ := Option.isSome_iff_exists.1 hsome
  have hcode : e'.code = e.code := by simpa using List.find?_some hfound
  have hsame : e' = e := List.inj_on_of_nodup_map hnodup (List.mem_of_find?_eq_some hfound) he hcode
  rw [hfound, hsame]

theorem code_ne_zero_of_fontHasNoZero {cfg : Cfg} (h : cfg.fontHasNoZero = true) : ∀ e ∈ cfg.font, e.code ≠ 0 := by
  simpa [Cfg.fontHasNoZero] using h

/-- Settles O8: the lookup as a search, by induction on the table; with no code repeated the search by an entry's code finds
that entry. -/
theorem lookupIsTheFirstMatch : Obligations.LookupIsTheFirstMatch := by
  refine ⟨fun cfg k hzero => lookup_eq_find? (code_ne_zero_of_fontHasNoZero hzero) k, lookup_zero, ?_⟩
  intro cfg e hzero hrepeat he
  rw [lookup_eq_find? (code_ne_zero_of_fontHasNoZero hzero), find?_code_of_mem (of_decide_eq_true hrepeat) he]
  rfl

/-! ## ENCODE's pattern and the flag -/

theorem inRemap_iff (c : Byte) : inRemap c = true ↔ 35 ≤ c ∧ c ≤ 44 := by
  rw [inRemap, Bool.and_eq_true, decide_eq_true_iff, decide_eq_true_iff]
  rfl

/-- R81: in 35..44 the code looked up is 13 higher and the flag counts as set; outside, both are taken as they are. -/
theorem encodeChar_eq (cfg : Cfg) (c : Byte) (dp : Bool) :
    encodeChar cfg c dp = patternOf (lookup cfg.font (if 35 ≤ c ∧ c ≤ 44 then c + 13 else c))
      (if 35 ≤ c ∧ c ≤ 44 then true else dp) := by
  simp only [encodeChar, remap, effectiveDp, inRemap_iff, remapAdd]

theorem encodeChar_of_mem_range {c : Byte} (hc : 35 ≤ c ∧ c ≤ 44) (cfg : Cfg) (dp : Bool) :
    encodeChar cfg c dp = patternOf (lookup cfg.font (c + 13)) true := by
  rw [encodeChar_eq, if_pos hc, if_pos hc]

theorem encodeChar_of_not_mem_range {c : Byte} (hc : ¬(35 ≤ c ∧ c ≤ 44)) (cfg : Cfg) (dp : Bool) :
    encodeChar cfg c dp = patternOf (lookup cfg.font c) dp := by
  rw [encodeChar_eq, if_neg hc, if_neg hc]

/-- R81: the remap applies once, as a code 13 above one of 35..44 is above 44. -/
theorem add_remapAdd_not_mem_range {c : Byte} (hc : 35 ≤ c ∧ c ≤ 44) : ¬(35 ≤ c + 13 ∧ c + 13 ≤ 44) := by
  bv_omega

/-- Settles O9: the rules for a miss and a hit, at the code and flag that ENCODE looks up inside and outside 35..44. -/
theorem encodeHasTheFourTestableProperties : Obligations.EncodeHasTheFourTestableProperties := by
  intro cfg c dp
  refine ⟨fun hmiss => ?_, fun p hc hhit => ?_, fun p hhit => ?_, fun hc => ⟨?_, ?_⟩⟩
  · rw [encodeChar_eq, hmiss]
    rfl
  · rw [encodeChar_of_not_mem_range hc, hhit]
    rfl
  · rw [encodeChar_eq, hhit, ite_self]
    rfl
  · rw [encodeChar_of_mem_range hc, encodeChar_of_mem_range hc]
  · rw [encodeChar_of_mem_range hc, encodeChar_of_not_mem_range (add_remapAdd_not_mem_range hc)]

/-- R84: the decimal point is bit 7 alone, so that ORing it in leaves bits 6:0. -/
theorem or_dpMask_and_segments (p : Byte) : (p ||| dpMask) &&& 0x7F = p &&& 0x7F := by
  have hdisjoint : dpMask &&& 0x7F = 0#8 := by decide
  rw [BitVec.and_or_distrib_right, hdisjoint, BitVec.or_zero]

/-- R88: ORing the decimal point into a pattern that has bit 7 set changes nothing. -/
theorem or_dpMask_of_bit7 {p : Byte} (h : p.getLsbD 7 = true) : p ||| dpMask = p := by
  refine BitVec.eq_of_getLsbD_eq fun i hi => ?_
  have hmask : dpMask.getLsbD i = decide (i = 7) := by
    interval_cases i <;> rfl
  rw [BitVec.getLsbD_or, hmask]
  by_cases hi7 : i = 7
  · rw [hi7, h, Bool.true_or]
  · rw [decide_eq_false hi7, Bool.or_false]

/-- Settles O11: in 35..44 the flag is not read; outside, it ORs bit 7 into a hit and leaves a miss blank. -/
theorem segmentBitsIgnoreTheFlag : Obligations.SegmentBitsIgnoreTheFlag := by
  intro cfg c
  by_cases hc : 35 ≤ c ∧ c ≤ 44
  · rw [encodeChar_of_mem_range hc, encodeChar_of_mem_range hc]
    exact ⟨rfl, fun _ => rfl⟩
  · rw [encodeChar_of_not_mem_range hc, encodeChar_of_not_mem_range hc]
    cases lookup cfg.font c with
    | none => exact ⟨rfl, fun _ => rfl⟩
    | some p => exact ⟨or_dpMask_and_segments p, or_dpMask_of_bit7⟩

end Sys2Proof.Machine

namespace Sys2Proof.Machine

/-! ## A host command from acceptance to the end -/

/-- R127: the host waiting, as many steps as `l` is long perform `l` of the list taken up and leave `m`. -/
theorem State.steps_start_append {s : State} (hw : s.hostWaits = true) (isInit : Bool) {l m : List Assign}
    (hne : l ++ m ≠ []) :
    (s.start isInit (l ++ m)).steps l.length =
      mapNext (State.advance isInit m) (State.pins l { s with busy := true }) := by
  have hstart : s.start isInit (l ++ m) = State.advance isInit (l ++ m) { s with busy := true } := by
    obtain ⟨a, rest, hcons⟩ := List.exists_cons_of_ne_nil hne
    rw [hcons, State.start_cons, State.advance_cons]
  rw [hstart, State.steps_running (s := { s with busy := true }) rfl hw]

theorem State.pins_life {l : List Assign} {s t : State} (h : s.pins l = .next t) : t.life = s.life := by
  induction l generalizing s with
  | nil => cases h; rfl
  | cons a rest ih =>
    rw [State.pins] at h
    cases hpin : s.pin a with
    | next u =>
      rw [hpin] at h
      obtain ⟨-, hlife, -⟩ := State.pin_frame hpin
      exact (ih h).trans hlife
    | fault r => rw [hpin] at h; cases h
    | refused r => rw [hpin] at h; cases h

/-- R15: as long as something of the list is left, life is what it was at acceptance. -/
theorem State.steps_start_life {s v : State} (hw : s.hostWaits = true) {isInit : Bool} {l : List Assign} {k : Nat}
    (hk : k < l.length) (h : (s.start isInit l).steps k = .next v) : v.life = s.life := by
  have hsplit : l.take k ++ l.drop k = l := List.take_append_drop k l
  have hlen : (l.take k).length = k := List.length_take_of_le hk.le
  have hleft : l.drop k ≠ [] := by simpa using hk
  have hrun := State.steps_start_append hw isInit (List.append_ne_nil_of_right_ne_nil (l.take k) hleft)
  rw [hsplit, hlen, h] at hrun
  cases hpins : State.pins (l.take k) { s with busy := true } with
  | next u =>
    rw [hpins] at hrun
    cases hrun
    rw [State.advance_life, List.isEmpty_eq_false_iff.2 hleft, Bool.and_false]
    exact State.pins_life (s := { s with busy := true }) hpins
  | fault r => rw [hpins] at hrun; cases hrun
  | refused r => rw [hpins] at hrun; cases hrun

/-- R127, R146: a host command other than INIT, accepted between commands, lowers err, sends its frames and ends. -/
theorem State.accept_frames_runs {s : State} (hr : s.ready = true) (hw : s.hostWaits = true) {fs : Cfg → List Frame}
    (hfs : fs s.cfg ≠ []) :
    ∃ t, s.accept (fun u => .next (u.start false (pinsOf (fs u.cfg)))) = .next t ∧
      t.steps (50 * (fs s.cfg).length + 1) = .next (State.emits (fs s.cfg) { s with err := false }) := by
  obtain ⟨hb, hp, -, -⟩ := (State.ready_iff s).1 hr
  have hfree : State.finish false (State.emits (fs s.cfg) { s with err := false }) =
      State.emits (fs s.cfg) { s with err := false } :=
    State.finish_of_free ((State.emits_busy ..).trans hb) ((State.emits_phase ..).trans hp)
  have hrun := State.steps_start_pinsOf (s := { s with err := false }) hr hw false hfs
  rw [hfree] at hrun
  exact ⟨_, State.accept_idle _ hb, hrun⟩

/-- Settles O19: the one frame of SETBRIGHT, accepted between commands. -/
theorem setBrightRunsToItsEnd : Obligations.SetBrightRunsToItsEnd := fun level _ hr hw =>
  State.accept_frames_runs hr hw (fs := fun cfg => brightFrames cfg level) (List.cons_ne_nil _ _)

/-- Settles O20: the decoder's equation for CLEAR, and its eight frames, accepted between commands. -/
theorem clearRunsToItsEnd : Obligations.ClearRunsToItsEnd :=
  ⟨decode_clear, fun _ hr hw => State.accept_frames_runs hr hw (fs := fun _ => clearFrames) (List.cons_ne_nil _ _)⟩

/-! ## INIT -/

theorem initPins_length (cfg : Cfg) : (initPins cfg).length = 651 := by
  rw [initPins, List.length_cons, pinsOf_length]
  rfl

/-- D24: an assignment that repeats the level of CS is recorded in WIRE, and is all the same no edge. -/
theorem State.pin_cs_repeat {s : State} (hcs : s.cs = true) :
    s.pin ⟨.cs, true⟩ = .next { s with wire := s.wire ++ [⟨.cs, true⟩] } := by
  rw [State.pin_cs_quiet hcs, State.drive, ← hcs]

/-- R90, R135: INIT's list is `(CS,1)`, which the receiver does not see, and the 13 frames. -/
theorem State.pins_initPins {s : State} (hcs : s.cs = true) (hclk : s.clk = false) (cfg : Cfg) :
    s.pins (initPins cfg) = .next (State.emits (initFrames cfg) { s with wire := s.wire ++ [⟨.cs, true⟩] }) := by
  rw [initPins, ← List.singleton_append, State.pins_append_next (State.pins_singleton (State.pin_cs_repeat hcs)),
    State.pins_pinsOf (s := { s with wire := s.wire ++ [⟨.cs, true⟩] }) hcs hclk]

/-- What INIT's list leaves of the state, at the frame level: `(CS,1)` in WIRE and the 13 frames (R90). -/
def State.initSent (s : State) : State :=
  State.emits (initFrames s.cfg) { s with wire := s.wire ++ [⟨.cs, true⟩] }

theorem State.initSent_busy (s : State) : s.initSent.busy = s.busy := State.emits_busy ..

theorem State.initSent_phase (s : State) : s.initSent.phase = s.phase := State.emits_phase ..

/-- R127: the end of INIT clears busy and phase, which a free state has clear, and life is Active. -/
theorem State.finish_init_of_free {s : State} (hb : s.busy = false) (hp : s.phase = .idle) (b : Bool) :
    State.finish true { s with busy := b } = { s with life := .active } := by
  rw [State.finish, ← hb, ← hp]
  rfl

section
variable {s : State} (hr : s.ready = true) (hw : s.hostWaits = true)
include hr

theorem State.pins_initPins_of_ready :
    State.pins (initPins s.cfg) { s with busy := true } = .next { s.initSent with busy := true } := by
  obtain ⟨-, -, hcs, hclk⟩ := (State.ready_iff s).1 hr
  rw [State.pins_initPins (s := { s with busy := true }) hcs hclk,
    State.emits_set_busy _ _ { s with wire := s.wire ++ [⟨.cs, true⟩] }]
  rfl

include hw

/-- R90, R15: after the 651 assignments of INIT its frames are sent and life is Active; the command has not ended. -/
theorem State.steps_init_performed :
    (s.start true (initPins s.cfg)).steps 651 =
      .next { s.initSent with busy := true, phase := .running true [], life := .active } := by
  have hne : initPins s.cfg ++ [] ≠ [] := List.cons_ne_nil _ _
  have hrun := State.steps_start_append hw true hne
  rw [List.append_nil, initPins_length, State.pins_initPins_of_ready hr] at hrun
  exact hrun

/-- R127: one step more is the end (log 13). -/
theorem State.steps_init : (s.start true (initPins s.cfg)).steps 652 = .next { s.initSent with life := .active } := by
  obtain ⟨hb, hp, -, -⟩ := (State.ready_iff s).1 hr
  have hne : initPins s.cfg ≠ [] := List.cons_ne_nil _ _
  have hend := State.steps_start hw true hne (State.pins_initPins_of_ready hr)
  rw [initPins_length, State.finish_init_of_free (s.initSent_busy.trans hb) (s.initSent_phase.trans hp)] at hend
  exact hend

end

/-- Settles O18: between commands INIT's list is taken up with err at 0, its 651 assignments are performed
(`State.steps_init_performed`) with life untouched before the last (`State.steps_start_life`), and one step more ends it. -/
theorem initRunsToItsEnd : Obligations.InitRunsToItsEnd := by
  refine ⟨decode_init, fun s hr hw => ?_⟩
  obtain ⟨hb, -, -, -⟩ := (State.ready_iff s).1 hr
  have haccept : execInit s = .next (State.start true (initPins s.cfg) { s with err := false }) := State.accept_idle _ hb
  refine ⟨_, _, haccept, rfl, fun k v hk hv => ?_,
    State.steps_init_performed (s := { s with err := false }) hr hw, State.steps_init (s := { s with err := false }) hr hw⟩
  have hlen : k < (initPins s.cfg).length := by rw [initPins_length]; omega
  exact State.steps_start_life (s := { s with err := false }) hw hlen hv

end Sys2Proof.Machine

namespace Sys2Proof.Machine

/-! ## DISPCHAR and its guard -/

/-- R104: the guard lets an index pass where it is off or the index is a digit's. -/
theorem outOfRange_eq_false_iff (cfg : Cfg) (d : Byte) : outOfRange cfg d = false ↔ (cfg.oorGuard = true → d ≤ 7) := by
  have hd : ¬7 < d ↔ d ≤ 7 := BitVec.not_lt
  rw [outOfRange, Bool.and_eq_false_imp, decide_eq_false_iff_not, hd]

theorem outOfRange_of_guard {cfg : Cfg} {d : Byte} (hg : cfg.oorGuard = true) (hd : 7 < d) : outOfRange cfg d = true := by
  rw [outOfRange, hg, decide_eq_true hd]
  rfl

theorem charFrames_of_not_outOfRange {cfg : Cfg} {d : Byte} (h : outOfRange cfg d = false) (c : Byte) (dp : Bool) :
    charFrames cfg d c dp = [charFrame cfg d c dp] := by
  rw [charFrames, h]
  rfl

/-- R101: a byte's sum with 1 wraps modulo 256. -/
theorem addr_eq_ofNat (d : Byte) : addr d = BitVec.ofNat 8 ((d.toNat + 1) % 256) := by
  rw [addr]
  bv_omega

/-- R100: where the guard lets the index pass, DISPCHAR is the acceptance of its one frame. -/
theorem exec_dispChar_of_not_outOfRange {s : State} {d : Byte} (h : outOfRange s.cfg d = false) (c : Byte) (dp : Bool) :
    exec (.dispChar d c dp) s = s.accept fun u => .next (u.start false (pinsOf [charFrame u.cfg d c dp])) := by
  cases hb : s.busy with
  | true => rw [exec, execDispChar, State.accept_busy _ hb, State.accept_busy _ hb]
  | false =>
    rw [exec, execDispChar, State.accept_idle _ hb, State.accept_idle _ hb]
    simp only [h, charFrames_of_not_outOfRange h, Bool.false_eq_true, if_false]

/-- R104, R146: refused by the guard, DISPCHAR writes the two error outputs and ends. -/
theorem exec_dispChar_of_outOfRange {s : State} {d : Byte} (hb : s.busy = false) (h : outOfRange s.cfg d = true)
    (c : Byte) (dp : Bool) : exec (.dispChar d c dp) s = .next { s with err := true, errInfo := d } := by
  rw [exec, execDispChar, State.accept_idle _ hb]
  exact if_pos h

/-- Settles O21: let pass by the guard, it is one frame, accepted between commands. -/
theorem dispCharRunsToItsEnd : Obligations.DispCharRunsToItsEnd := by
  intro d c dp s hr hw hd
  have hpass : outOfRange s.cfg d = false := (outOfRange_eq_false_iff s.cfg d).2 hd
  rw [exec_dispChar_of_not_outOfRange hpass, ← addr_eq_ofNat]
  exact State.accept_frames_runs hr hw (fs := fun cfg => [charFrame cfg d c dp]) (List.cons_ne_nil _ _)

theorem State.errCode_of_err {s : State} (h : s.err = false) : s.errCode = 0 := by
  rw [State.errCode, h]
  rfl

/-- R146: an outcome in which a pin assignment list is taken up with err lowered, and TB and PL written at most, reports no
error and leaves err_info. -/
theorem no_error_of_start {s : State} {o : Outcome} {isInit : Bool} {l : List Assign} {tb : List Byte} {pl : List Pair}
    (h : o = .next (State.start isInit l { s with err := false, tb := tb, pl := pl })) :
    ∃ t, o = .next t ∧ t.err = false ∧ t.errCode = 0 ∧ t.errInfo = s.errInfo := by
  have herr : (State.start isInit l { s with err := false, tb := tb, pl := pl }).err = false := State.start_err ..
  exact ⟨_, h, herr, State.errCode_of_err herr, State.start_errInfo ..⟩

/-- R146: every accepted command answers so, DISPCHAR where the guard lets its index pass. -/
theorem exec_command_no_error {s : State} {i : Instr} (hb : s.busy = false) (hi : isCommand i = true)
    (hpass : ∀ d c dp, i = .dispChar d c dp → s.cfg.oorGuard = true → d ≤ 7) :
    ∃ t, exec i s = .next t ∧ t.err = false ∧ t.errCode = 0 ∧ t.errInfo = s.errInfo := by
  cases i with
  | init => exact no_error_of_start (show execInit s = _ from State.accept_idle _ hb)
  | setBright level => exact no_error_of_start (show execSetBright level s = _ from State.accept_idle _ hb)
  | clear => exact no_error_of_start (show execClear s = _ from State.accept_idle _ hb)
  | dispChar d c dp =>
    have hd : outOfRange s.cfg d = false := (outOfRange_eq_false_iff s.cfg d).2 (hpass d c dp rfl)
    exact no_error_of_start ((exec_dispChar_of_not_outOfRange hd c dp).trans (State.accept_idle _ hb))
  | dispText text justify => exact no_error_of_start (show execDispText text justify s = _ from State.accept_idle _ hb)
  | _ => cases hi

/-- Settles O22: the guard refuses the index, or lets it pass whether on or off (`charFrames_of_not_outOfRange`); and a
command it does not refuse lowers err (`exec_command_no_error`). -/
theorem guardRefusesAnIndexAboveSeven : Obligations.GuardRefusesAnIndexAboveSeven := by
  refine ⟨fun d c dp s hb hg hd => ?_, fun d c dp cfg hd => ?_, fun i s hb hi hpass => exec_command_no_error hb hi hpass⟩
  · exact ⟨_, exec_dispChar_of_outOfRange hb (outOfRange_of_guard hg hd) c dp, rfl, rfl⟩
  · have hpass : ∀ guard, outOfRange { cfg with oorGuard := guard } d = false :=
      fun _ => (outOfRange_eq_false_iff _ d).2 fun _ => hd
    rw [charFrames_of_not_outOfRange (hpass true), charFrames_of_not_outOfRange (hpass false)]
    rfl

end Sys2Proof.Machine

namespace Sys2Proof.Machine

/-! ## The fold of full stops -/

theorem foldChar_dot (pl : List Pair) : foldChar pl dot = setLastDp pl := if_pos rfl

theorem foldChar_of_ne_dot {c : Byte} (h : c ≠ dot) (pl : List Pair) : foldChar pl c = pl ++ [⟨c, false⟩] := if_neg h

/-- R111: the scan's last character is folded last. -/
theorem fold_concat (tb : List Byte) (c : Byte) : fold (tb ++ [c]) = foldChar (fold tb) c := List.foldl_concat ..

theorem setLastDp_concat (pl : List Pair) (p : Pair) : setLastDp (pl ++ [p]) = pl ++ [{ p with dp := true }] := by
  induction pl with
  | nil => rfl
  | cons q rest ih =>
    have hcons : setLastDp (q :: (rest ++ [p])) = q :: setLastDp (rest ++ [p]) := by cases rest <;> rfl
    rw [List.cons_append, hcons, ih, List.cons_append]

/-- R111: "sets", so that setting the flag again changes nothing. -/
theorem setLastDp_setLastDp (pl : List Pair) : setLastDp (setLastDp pl) = setLastDp pl := by
  cases pl using List.reverseRecOn with
  | nil => rfl
  | append_singleton rest p => rw [setLastDp_concat, setLastDp_concat]

theorem fold_length (tb : List Byte) : (fold tb).length = tb.countP fun c => c != dot := by
  rw [← List.length_map (as := fold tb) Pair.ch, fold_map_ch, List.countP_eq_length_filter]

/-- Settles O34: each clause is the fold's last character (`fold_concat`), but for the characters (`fold_map_ch`), the
leading full stop, which meets no pair, and the bound, at most one pair a character. -/
theorem foldFoldsFullStops : Obligations.FoldFoldsFullStops := by
  intro tb
  have hdot (tb : List Byte) : fold (tb ++ [46]) = setLastDp (fold tb) := (fold_concat tb dot).trans (foldChar_dot _)
  have hchar (c : Byte) (hc : c ≠ 46) : fold (tb ++ [c]) = fold tb ++ [⟨c, false⟩] :=
    (fold_concat tb c).trans (foldChar_of_ne_dot hc _)
  refine ⟨fold_map_ch tb, hchar, fun c hc => ?_, rfl, ?_, ?_⟩
  · rw [List.append_cons, hdot, hchar c hc, setLastDp_concat]
  · rw [List.append_cons, hdot (tb ++ [46]), hdot tb, setLastDp_setLastDp]
  · rw [fold_length]
    exact List.countP_le_length.trans (truncate_length_le tb)

/-- Settles O35: the clamp of the fold's length. -/
theorem pairCountIsTheClampedCharacterCount : Obligations.PairCountIsTheClampedCharacterCount := by
  intro text
  rw [layout, List.length_take, fold_length]
  rfl

/-! ## The frames of a text -/

/-- R101: the address of a digit is one more than its number. -/
theorem addr_ofNat (n : Nat) : addr (BitVec.ofNat 8 n) = BitVec.ofNat 8 (n + 1) := (BitVec.ofNat_add n 1).symm

/-- R116, R101: with at most eight pairs the guard, on or off, lets every pair's frame pass, to its digit's address. -/
theorem textFrames_eq_map (cfg : Cfg) {pl : List Pair} (hpl : pl.length ≤ 8) (justify : Bool) :
    textFrames cfg pl justify = pl.zipIdx.map fun px =>
      ⟨BitVec.ofNat 8 (digitOf justify pl.length px.2 + 1), encodeChar cfg px.1.ch px.1.dp⟩ := by
  rw [textFrames, List.map_eq_flatMap]
  refine List.flatMap_congr fun px _ => ?_
  have hd : digitOf justify pl.length px.2 ≤ 7 := digitOf_le justify px.2 hpl
  have hpass : outOfRange cfg (BitVec.ofNat 8 (digitOf justify pl.length px.2)) = false :=
    (outOfRange_eq_false_iff ..).2 fun _ => by bv_omega
  exact (charFrames_of_not_outOfRange hpass ..).trans (by rw [charFrame, addr_ofNat])

theorem textFrames_length (cfg : Cfg) {pl : List Pair} (hpl : pl.length ≤ 8) (justify : Bool) :
    (textFrames cfg pl justify).length = pl.length := by
  rw [textFrames_eq_map cfg hpl, List.length_map, List.length_zipIdx]

/-- R113, R114: the opcodes are the digits of the positions, plus one, and do not depend on the pairs. -/
theorem textFrames_opcodes (cfg : Cfg) {pl : List Pair} (hpl : pl.length ≤ 8) (justify : Bool) :
    (textFrames cfg pl justify).map Frame.opcode =
      (List.range pl.length).map fun x => BitVec.ofNat 8 (digitOf justify pl.length x + 1) := by
  have hpos : pl.zipIdx.map Prod.snd = List.range pl.length := by
    rw [List.zipIdx_map_snd, List.range_eq_range']
  rw [textFrames_eq_map cfg hpl, ← hpos, List.map_map, List.map_map]
  rfl

theorem digitOf_right (y x : Nat) : digitOf false y x = y - x - 1 := rfl

theorem digitOf_left (y x : Nat) : digitOf true y x = 7 - x := rfl

theorem digitOf_right_succ {y x : Nat} (hx : x < y) : digitOf false y x + 1 = y - x := by
  rw [digitOf_right]
  omega

theorem digitOf_left_succ {x : Nat} (hx : x < 8) (y : Nat) : digitOf true y x + 1 = 8 - x := by
  rw [digitOf_left]
  omega

/-- Settles O36: the positions are below y, which is at most 8. -/
theorem textOpcodesDescend : Obligations.TextOpcodesDescend := by
  rintro cfg text y rfl
  have hlen : (layout (truncate text)).length ≤ 8 := layout_length_le _
  rw [textFrames_opcodes cfg hlen, textFrames_opcodes cfg hlen]
  constructor <;> refine List.map_congr_left fun x hx => ?_
  · rw [digitOf_right_succ (List.mem_range.1 hx)]
  · rw [digitOf_left_succ ((List.mem_range.1 hx).trans_le hlen)]

/-- R114: of eight pairs, pair x has the same digit either way. -/
theorem digitOf_left_eq_right_of_eight (x : Nat) : digitOf true 8 x = digitOf false 8 x := by
  rw [digitOf_left, digitOf_right]
  omega

/-- Settles O37: the digits are all in which the two justifications differ. -/
theorem eightPairsJustifyAlike : Obligations.EightPairsJustifyAlike := by
  intro cfg pl hpl
  simp only [textFrames, hpl, digitOf_left_eq_right_of_eight]

/-! ## DISPTEXT -/

/-- R115: accepted between commands, DISPTEXT is a command that sends its frames from the state in which TB and PL are
written. -/
theorem exec_dispText_of_free {s : State} (hb : s.busy = false) (text : List Byte) (justify : Bool) :
    exec (.dispText text justify) s =
      State.accept { s with tb := truncate text, pl := layout (truncate text) } fun u =>
        .next (u.start false (pinsOf (textFrames u.cfg (layout (truncate text)) justify))) := by
  rw [exec, execDispText, State.accept_idle _ hb,
    State.accept_idle (s := { s with tb := truncate text, pl := layout (truncate text) }) _ hb]

/-- Settles O23: the frames of the pairs (`textFrames_eq_map`), accepted between commands. -/
theorem dispTextRunsToItsEnd : Obligations.DispTextRunsToItsEnd := by
  rintro text justify _ s hr hw rfl hne
  have hlen : (layout (truncate text)).length ≤ 8 := layout_length_le _
  have hcount := textFrames_length s.cfg hlen justify
  have hframes : textFrames s.cfg (layout (truncate text)) justify ≠ [] := by
    rw [← List.length_pos_iff, hcount]
    exact List.length_pos_iff.2 hne
  obtain ⟨hb, -⟩ := (State.ready_iff s).1 hr
  obtain ⟨t, ht, hrun⟩ := State.accept_frames_runs
    (s := { s with tb := truncate text, pl := layout (truncate text) })
    (fs := fun cfg => textFrames cfg (layout (truncate text)) justify) hr hw hframes
  refine ⟨t, (exec_dispText_of_free hb text justify).trans ht, ?_⟩
  rw [hcount, textFrames_eq_map s.cfg hlen] at hrun
  exact hrun

end Sys2Proof.Machine

namespace Sys2Proof.Machine

/-! ## Lists that drain cleanly -/

/-- Taken up between commands, the list drains cleanly, whatever the receiver has counted before. -/
def DrainsWhenReady (l : List Assign) : Prop := ∀ n, drainsCleanly true false n l = true

section
variable {cs clk : Bool} {n : Nat}

theorem drainsCleanly_clk_quiet {v : Bool} (h : ¬(cs = false ∧ clk = false ∧ v = true)) (l : List Assign) :
    drainsCleanly cs clk n (⟨.clk, v⟩ :: l) = drainsCleanly cs v n l := by
  have hedge : (!clk && v && !cs) = false := by
    rw [← Bool.not_eq_true, Bool.and_eq_true, Bool.and_eq_true, Bool.not_eq_true', Bool.not_eq_true']
    exact fun ⟨⟨hclk, hv⟩, hcs⟩ => h ⟨hcs, hclk, hv⟩
  rw [drainsCleanly, hedge]
  rfl

theorem drainsCleanly_cs_quiet (l : List Assign) :
    drainsCleanly cs clk n (⟨.cs, cs⟩ :: l) = drainsCleanly cs clk n l := by
  cases cs <;> rfl

theorem drainsCleanly_cs_rise (l : List Assign) :
    drainsCleanly false clk n (⟨.cs, true⟩ :: l) = true ↔ n = 16 ∧ drainsCleanly true clk n l = true := by
  simp [drainsCleanly]

/-- A list that drains cleanly ends between commands, so that another may follow it. -/
theorem drainsCleanly_append {l m : List Assign} (h : drainsCleanly cs clk n l = true) (hm : DrainsWhenReady m) :
    drainsCleanly cs clk n (l ++ m) = true := by
  induction l generalizing cs clk n with
  | nil =>
    obtain ⟨rfl, hclk⟩ := Bool.and_eq_true_iff.1 h
    rw [Bool.not_eq_true'] at hclk
    subst hclk
    exact hm n
  | cons a rest ih =>
    obtain ⟨line, v⟩ := a
    cases line with
    | data => exact ih (clk := clk) h
    | clk => exact ih (clk := v) h
    | cs =>
      rw [List.cons_append]
      by_cases hquiet : v = cs
      · subst hquiet
        rw [drainsCleanly_cs_quiet] at h ⊢
        exact ih h
      · cases v with
        | false =>
          obtain rfl : cs = true := by simpa using hquiet
          exact ih (cs := false) h
        | true =>
          obtain rfl : cs = false := by simpa using hquiet
          rw [drainsCleanly_cs_rise] at h ⊢
          exact h.imp_right ih

end

theorem drainsWhenReady_nil : DrainsWhenReady [] := fun _ => rfl

theorem DrainsWhenReady.append {l m : List Assign} (hl : DrainsWhenReady l) (hm : DrainsWhenReady m) :
    DrainsWhenReady (l ++ m) := fun n => drainsCleanly_append (hl n) hm

/-- R132: inside a frame the 24 assignments of a byte sample eight bits. -/
theorem drainsCleanly_shiftPins (n : Nat) (b : Byte) (l : List Assign) :
    drainsCleanly false false n (shiftPins b ++ l) = drainsCleanly false false (n + 8) l := rfl

/-- R132: outside a frame they sample none. -/
theorem drainsWhenReady_shiftPins (b : Byte) : DrainsWhenReady (shiftPins b) := fun _ => rfl

theorem drainsWhenReady_framePins (f : Frame) : DrainsWhenReady (framePins f) := by
  intro n
  have hopen : drainsCleanly true false n (framePins f) =
      drainsCleanly false false 0 (shiftPins f.opcode ++ (shiftPins f.data ++ [⟨.cs, true⟩])) := by
    rw [← List.append_assoc]; rfl
  rw [hopen, drainsCleanly_shiftPins, drainsCleanly_shiftPins]
  rfl

theorem drainsWhenReady_pinsOf (fs : List Frame) : DrainsWhenReady (pinsOf fs) := by
  induction fs with
  | nil => exact drainsWhenReady_nil
  | cons f rest ih => exact (drainsWhenReady_framePins f).append ih

/-- R90: the `(CS,1)` before INIT's frames is no edge. -/
theorem drainsWhenReady_initPins (cfg : Cfg) : DrainsWhenReady (initPins cfg) := fun n =>
  (drainsCleanly_cs_quiet (cs := true) (pinsOf (initFrames cfg))).trans (drainsWhenReady_pinsOf (initFrames cfg) n)

/-! ## What an instruction answers -/

/-- `Answers s i t`: the instruction `i` can make `t` of the state `s`. Of the pin assignment list it takes up the relation tells
that the list drains cleanly. -/
inductive Answers (s : State) : Instr → State → Prop where
  /-- The block is busy: the word waits (R148). -/
  | waits {i : Instr} (hb : s.busy = true) : Answers s i s
  /-- ENCODE at its port (R67). -/
  | encodes {c : Byte} {dp : Bool} :
      Answers s (.encode c dp) { s with encIn := BitVec.ofBool dp ++ c, encOut := encodeChar s.cfg c dp }
  /-- DISPCHAR refused by the guard (R104, R146). -/
  | refuses {d c : Byte} {dp : Bool} (hb : s.busy = false) (hg : outOfRange s.cfg d = true) :
      Answers s (.dispChar d c dp) (State.raiseInvalidArgument d { s with err := false })
  /-- DISPTEXT accepted (R115). -/
  | displays {text : List Byte} {justify : Bool} {l : List Assign} (hb : s.busy = false) (hl : DrainsWhenReady l) :
      Answers s (.dispText text justify)
        (State.start false l { s with err := false, tb := truncate text, pl := layout (truncate text) })
  /-- Another host command accepted (R127). -/
  | commands {i : Instr} {isInit : Bool} {l : List Assign} (hb : s.busy = false) (hi : isCommand i = true)
      (hl : DrainsWhenReady l) : Answers s i (State.start isInit l { s with err := false })
  /-- A primitive called directly (R123, R124). -/
  | calls {i : Instr} {l : List Assign} (hb : s.busy = false) (hl : DrainsWhenReady l) : Answers s i (s.start false l)

section
variable {s t : State} {i : Instr}

theorem answers_of_whenFree {f : State → Outcome} (hf : ∀ u, s.busy = false → f s = .next u → Answers s i u)
    (h : s.whenFree f = .next t) : Answers s i t := by
  cases hb : s.busy with
  | true =>
    rw [State.whenFree_busy f hb] at h
    cases h
    exact .waits hb
  | false => exact hf t hb ((State.whenFree_idle f hb).symm.trans h)

theorem answers_of_accept {f : State → Outcome}
    (hf : ∀ u, s.busy = false → f { s with err := false } = .next u → Answers s i u) (h : s.accept f = .next t) :
    Answers s i t :=
  answers_of_whenFree hf h

theorem answers_of_accept_start (hi : isCommand i = true) {isInit : Bool} {l : State → List Assign}
    (hl : ∀ u, DrainsWhenReady (l u)) (h : s.accept (fun u => .next (u.start isInit (l u))) = .next t) :
    Answers s i t :=
  answers_of_accept (by rintro _ hb ⟨⟩; exact .commands hb hi (hl _)) h

theorem answers_of_sendFrame {f : Frame} (h : s.sendFrame f = .next t) : Answers s i t :=
  answers_of_whenFree (by rintro _ hb ⟨⟩; exact .calls hb (drainsWhenReady_framePins f)) h

theorem answers_of_execDispChar {d c : Byte} {dp : Bool} (h : execDispChar d c dp s = .next t) :
    Answers s (.dispChar d c dp) t := by
  refine answers_of_accept (fun u hb hu => ?_) h
  dsimp only at hu
  split at hu <;> cases hu
  · next hg => exact .refuses hb hg
  · exact .commands hb rfl (drainsWhenReady_pinsOf _)

/-- Everything an instruction that answers a next state can have done. -/
theorem exec_answers (h : exec i s = .next t) : Answers s i t := by
  cases i with
  | init => exact answers_of_accept_start rfl (fun _ => drainsWhenReady_initPins _) (show execInit s = _ from h)
  | setBright level =>
    exact answers_of_accept_start rfl (fun _ => drainsWhenReady_pinsOf _) (show execSetBright level s = _ from h)
  | clear => exact answers_of_accept_start rfl (fun _ => drainsWhenReady_pinsOf _) (show execClear s = _ from h)
  | dispChar d c dp => exact answers_of_execDispChar h
  | dispText text justify =>
    exact answers_of_accept (by rintro _ hb ⟨⟩; exact .displays hb (drainsWhenReady_pinsOf _))
      (show execDispText text justify s = _ from h)
  | encode c dp => cases h; exact .encodes
  | shiftOut b =>
    exact answers_of_whenFree (by rintro _ hb ⟨⟩; exact .calls hb (drainsWhenReady_shiftPins b))
      (show execShiftOut b s = _ from h)
  | _ => exact answers_of_sendFrame h

end

/-! ## The framing of the wires -/

theorem State.framed_idle {s : State} (hp : s.phase = .idle) :
    s.Framed ↔ s.busy = false ∧ s.cs = true ∧ s.clk = false := by
  simp [State.Framed, hp]

theorem State.framed_running {s : State} {isInit : Bool} {l : List Assign} (hp : s.phase = .running isInit l) :
    s.Framed ↔ s.busy = true ∧ drainsCleanly s.cs s.clk s.count l = true := by
  simp [State.Framed, hp]

theorem State.Framed.phase_of_free {s : State} (h : s.Framed) (hb : s.busy = false) : s.phase = .idle := by
  cases hp : s.phase with
  | idle => rfl
  | running isInit l =>
    obtain ⟨hbusy, -⟩ := (State.framed_running hp).1 h
    rw [hb] at hbusy
    cases hbusy

/-- A free block takes up a list that drains cleanly. -/
theorem State.Framed.start {s : State} (h : s.Framed) (hb : s.busy = false) (isInit : Bool) {l : List Assign}
    (hl : DrainsWhenReady l) : (s.start isInit l).Framed := by
  obtain ⟨-, hcs, hclk⟩ := (State.framed_idle (h.phase_of_free hb)).1 h
  cases l with
  | nil => exact ⟨rfl, hcs, hclk⟩
  | cons a rest =>
    refine ⟨rfl, ?_⟩
    rw [State.start_cs, State.start_clk, State.start_count, hcs, hclk]
    exact hl s.count

/-- R127: acceptance puts a list that drains cleanly before the sequencer, or leaves it. -/
theorem State.Framed.exec {s t : State} (h : s.Framed) {i : Instr} (hst : Machine.exec i s = .next t) : t.Framed := by
  cases exec_answers hst with
  | waits hb => exact h
  | encodes => exact h
  | refuses hb hg => exact h
  | displays hb hl => exact State.Framed.start (s := { s with err := false, tb := _, pl := _ }) h hb false hl
  | commands hb hi hl => exact State.Framed.start (s := { s with err := false }) h hb _ hl
  | calls hb hl => exact h.start hb false hl

/-- R134: the head of a list that drains cleanly does not fault, and what is left still drains cleanly. -/
theorem State.pin_of_drainsCleanly {s : State} {a : Assign} {l : List Assign}
    (h : drainsCleanly s.cs s.clk s.count (a :: l) = true) :
    ∃ t, s.pin a = .next t ∧ drainsCleanly t.cs t.clk t.count l = true := by
  obtain ⟨line, v⟩ := a
  cases line with
  | data => exact ⟨_, State.pin_data v s, h⟩
  | clk =>
    by_cases hedge : s.cs = false ∧ s.clk = false ∧ v = true
    · obtain ⟨hcs, hclk, rfl⟩ := hedge
      refine ⟨_, State.pin_clk_rise hcs hclk, ?_⟩
      rw [hcs, hclk] at h
      rwa [State.sample_cs, State.drive_cs, if_neg (by decide), hcs]
    · rw [drainsCleanly_clk_quiet hedge] at h
      exact ⟨_, State.pin_clk_quiet hedge, h⟩
  | cs =>
    by_cases hquiet : s.cs = v
    · subst hquiet
      rw [drainsCleanly_cs_quiet] at h
      exact ⟨_, State.pin_cs_quiet rfl, h⟩
    · cases v with
      | false =>
        have hcs : s.cs = true := by simpa using hquiet
        rw [hcs] at h
        exact ⟨_, State.pin_cs_fall hcs, h⟩
      | true =>
        have hcs : s.cs = false := by simpa using hquiet
        rw [hcs, drainsCleanly_cs_rise] at h
        obtain ⟨hn, hrest⟩ := h
        exact ⟨_, (State.pin_cs_rise hcs).trans (if_pos hn), hrest⟩

/-- R127, R134: the sequencer of a framed state goes on to a framed state. -/
theorem State.Framed.tick {s : State} (h : s.Framed) : ∃ t, s.tick = .next t ∧ t.Framed := by
  obtain ⟨-, h'⟩ | ⟨hb, isInit, a, rest, hp, h'⟩ | ⟨hb, isInit, hp, h'⟩ | ⟨hb, hp, -⟩ := State.tick_cases s
  · exact ⟨s, h', h⟩
  · obtain ⟨-, hdrain⟩ := (State.framed_running hp).1 h
    obtain ⟨t, hpin, hrest⟩ := State.pin_of_drainsCleanly (s := s.advance isInit rest) hdrain
    obtain ⟨-, -, hbusy, hphase, -⟩ := State.pin_frame hpin
    exact ⟨t, h'.trans hpin, (State.framed_running hphase).2 ⟨hbusy.trans hb, hrest⟩⟩
  · obtain ⟨-, hdrain⟩ := (State.framed_running hp).1 h
    obtain ⟨hcs, hclk⟩ := Bool.and_eq_true_iff.1 hdrain
    rw [Bool.not_eq_true'] at hclk
    exact ⟨_, h', rfl, hcs, hclk⟩
  · obtain ⟨hfree, -⟩ := (State.framed_idle hp).1 h
    rw [hb] at hfree
    cases hfree

/-- The framing is not of the inputs, one of which a fetch takes away. -/
theorem State.Framed.fetch_rest {s r : State} (h : s.Framed)
    (hf : (∃ w, s.fetch = .word w r) ∨ s.fetch = .reset r ∨ s.fetch = .nothing r) : r.Framed := by
  rw [State.fetch_rest hf]
  exact h

/-- Settles O43: an instruction takes up lists that drain cleanly (`State.Framed.exec`), the reset input leaves the lines as
between commands, and the sequencer performs the head of such a list (`State.Framed.tick`). -/
theorem stepKeepsTheFraming : Obligations.StepKeepsTheFraming := by
  intro s t hs h
  obtain ⟨w, r, i, hf, -, he⟩ | ⟨r, hf, rfl⟩ | ⟨r, hf, ht⟩ := step_cases h
  · exact (hs.fetch_rest (.inl ⟨w, hf⟩)).exec he
  · exact ⟨rfl, rfl, rfl⟩
  · obtain ⟨u, hu, hframed⟩ := (hs.fetch_rest (.inr (.inr hf))).tick
    rw [ht] at hu
    cases hu
    exact hframed

theorem exec_ne_fault (i : Instr) (s : State) (r : Fault) : exec i s ≠ .fault r := by
  obtain ⟨e, he⟩ := exec_hasEffectAt i s
  have hnext : exec i s = .next (e.apply s) := he s rfl rfl
  rw [hnext]
  nofun

theorem State.run_ne_fault (w : InstrWord) (s : State) (r : Fault) : s.run w ≠ .fault r := by
  unfold State.run
  split
  · exact exec_ne_fault _ s r
  · nofun

/-- Settles O44: only the sequencer could fault, and from a framed state it goes on (`State.Framed.tick`). -/
theorem framedStatesNeverFault : Obligations.FramedStatesNeverFault := by
  intro s r hs h
  unfold step at h
  cases hf : s.fetch with
  | word w rest => rw [hf] at h; exact State.run_ne_fault w rest r h
  | reset rest => rw [hf] at h; cases h
  | nothing rest =>
    rw [hf] at h
    obtain ⟨t, ht, -⟩ := (hs.fetch_rest (.inr (.inr hf))).tick
    cases ht.symm.trans h

end Sys2Proof.Machine

namespace Sys2Proof.Machine

/-! ## What an instruction leaves unchanged -/

@[simp] theorem Effect.apply_host (e : Effect) (s : State) : (e.apply s).host = s.host := by
  cases e <;> simp [Effect.apply]
@[simp] theorem Effect.apply_prim (e : Effect) (s : State) : (e.apply s).prim = s.prim := by
  cases e <;> simp [Effect.apply]

section
variable {i : Instr} {s t : State} (h : exec i s = .next t)
include h

/-- R18: only DISPTEXT writes TB and PL. -/
theorem exec_text (hi : ∀ text j, i ≠ .dispText text j) : t.tb = s.tb ∧ t.pl = s.pl := by
  cases exec_answers h with
  | waits hb => exact ⟨rfl, rfl⟩
  | encodes => exact ⟨rfl, rfl⟩
  | refuses hb hg => exact ⟨rfl, rfl⟩
  | displays hb hl => exact absurd rfl (hi _ _)
  | commands hb hcmd hl => exact ⟨State.start_tb .., State.start_pl ..⟩
  | calls hb hl => exact ⟨State.start_tb .., State.start_pl ..⟩

/-- R146: only a host command writes err. -/
theorem exec_err (hi : isCommand i = false) : t.err = s.err := by
  cases exec_answers h with
  | waits hb => rfl
  | encodes => rfl
  | refuses hb hg => cases hi
  | displays hb hl => cases hi
  | commands hb hcmd hl => cases hcmd.symm.trans hi
  | calls hb hl => exact State.start_err ..

/-- R146: only DISPCHAR writes err_info. -/
theorem exec_errInfo (hi : ∀ d c dp, i ≠ .dispChar d c dp) : t.errInfo = s.errInfo := by
  cases exec_answers h with
  | waits hb => rfl
  | encodes => rfl
  | refuses hb hg => exact absurd rfl (hi _ _ _)
  | displays hb hl => exact State.start_errInfo ..
  | commands hb hcmd hl => exact State.start_errInfo ..
  | calls hb hl => exact State.start_errInfo ..

end

/-- Settles O31: what every instruction leaves, by its effect; the rest by the instruction that may write it. -/
theorem execLeavesTheRestUnchanged : Obligations.ExecLeavesTheRestUnchanged := by
  intro i s t h
  have hrest : ((∀ text j, i ≠ .dispText text j) → t.tb = s.tb ∧ t.pl = s.pl) ∧ (isCommand i = false → t.err = s.err) ∧
      ((∀ d c dp, i ≠ .dispChar d c dp) → t.errInfo = s.errInfo) ∧
      ((∀ c dp, i ≠ .encode c dp) → t.encIn = s.encIn ∧ t.encOut = s.encOut) ∧
      (∀ c dp, i = .encode c dp → t.busy = s.busy ∧ t.phase = s.phase) := by
    refine ⟨exec_text h, exec_err h, exec_errInfo h, fun hi => exec_encPort hi h, ?_⟩
    rintro c dp rfl
    cases h
    exact ⟨rfl, rfl⟩
  obtain ⟨e, rfl⟩ := exec_next_effect h
  obtain ⟨hcs, hclk, hdata, hsr, hcount, hframes⟩ := Observer.mk.inj (e.apply_observer s)
  exact ⟨e.apply_cfg s, e.apply_life s, hcs, hclk, hdata, e.apply_sink s, hsr, hcount, hframes, e.apply_wire s,
    e.apply_host s, e.apply_prim s, hrest⟩

/-! ## One assignment a step -/

/-- R25: a pin assignment commits one frame at most. -/
theorem State.pin_frames {a : Assign} {s t : State} (h : s.pin a = .next t) :
    t.frames = s.frames ∨ ∃ f, t.frames = s.frames ++ [f] := by
  obtain rfl | rfl | rfl | ⟨f, rfl⟩ := State.pin_next h
  · exact .inl (s.drive_frames a)
  · exact .inl (s.drive_frames a)
  · exact .inl (s.drive_frames a)
  · exact .inr ⟨f, by rw [State.commit_frames, State.drive_frames]⟩

/-- The lines and histories are those of `s`, or one pin assignment is on them. -/
def State.AssignsAtMostOnce (s t : State) : Prop :=
  (t.wire = s.wire ∧ t.cs = s.cs ∧ t.clk = s.clk ∧ t.data = s.data ∧ t.frames = s.frames) ∨
    ∃ a : Assign, t.wire = s.wire ++ [a] ∧ t.cs = (if a.line = .cs then a.level else s.cs) ∧
      t.clk = (if a.line = .clk then a.level else s.clk) ∧ t.data = (if a.line = .data then a.level else s.data) ∧
      (t.frames = s.frames ∨ ∃ f, t.frames = s.frames ++ [f])

theorem State.assignsAtMostOnce_exec {i : Instr} {s t : State} (h : exec i s = .next t) : s.AssignsAtMostOnce t := by
  obtain ⟨e, rfl⟩ := exec_next_effect h
  obtain ⟨hcs, hclk, hdata, -, -, hframes⟩ := Observer.mk.inj (e.apply_observer s)
  exact .inl ⟨e.apply_wire s, hcs, hclk, hdata, hframes⟩

theorem State.assignsAtMostOnce_pin {a : Assign} {s t : State} (h : s.pin a = .next t) : s.AssignsAtMostOnce t := by
  obtain ⟨hcs, hclk, hdata, hwire⟩ := State.pin_lines h
  rw [State.drive_cs] at hcs
  rw [State.drive_clk] at hclk
  rw [State.drive_data] at hdata
  exact .inr ⟨a, hwire, hcs, hclk, hdata, State.pin_frames h⟩

theorem State.assignsAtMostOnce_tick {s t : State} (h : s.tick = .next t) : s.AssignsAtMostOnce t := by
  obtain ⟨-, h'⟩ | ⟨-, isInit, a, rest, -, h'⟩ | ⟨-, isInit, -, h'⟩ | ⟨-, -, h'⟩ := State.tick_cases s <;>
    rw [h'] at h
  · cases h; exact .inl ⟨rfl, rfl, rfl, rfl, rfl⟩
  · exact State.assignsAtMostOnce_pin (s := s.advance isInit rest) h
  · cases h; exact .inl ⟨rfl, rfl, rfl, rfl, rfl⟩
  · cases h; exact .inl ⟨rfl, rfl, rfl, rfl, rfl⟩

/-- Settles O54: an instruction makes no assignment, and the sequencer at most the one at the head of its list. -/
theorem oneAssignmentAStep : Obligations.OneAssignmentAStep := by
  intro s t hreset h
  obtain ⟨w, r, i, hf, -, he⟩ | ⟨r, hf, -⟩ | ⟨r, hf, ht⟩ := step_cases h
  · rw [State.fetch_rest (.inl ⟨w, hf⟩)] at he
    exact State.assignsAtMostOnce_exec (s := { s with host := r.host, prim := r.prim }) he
  · obtain ⟨rest, hhost⟩ := State.host_of_fetch_reset hf
    exact absurd hhost (hreset rest)
  · rw [State.fetch_rest (.inr (.inr hf))] at ht
    exact State.assignsAtMostOnce_tick (s := { s with host := r.host, prim := r.prim }) ht

/-! ## What a step takes up -/

theorem step_of_enc {s : State} {w : BitVec 9} {rest : List HostInput} (hb : s.busy = true ∨ s.prim = none)
    (hh : s.host = .enc w :: rest) : step s = State.run (.enc w) { s with host := rest } := by
  have hfetch : s.fetch = .word (.enc w) { s with host := rest } := by
    obtain hb | hp := hb
    · simp [State.fetch, State.fetchHost, hb, hh]
    · simp [State.fetch_of_prim_none hp, State.fetchHost, hh]
  rw [step, hfetch]

/-- A direct call goes before the host (log 15). -/
theorem step_of_prim {s : State} {p : Primitive} (hb : s.busy = false) (hp : s.prim = some p) :
    step s = State.run p.word { s with prim := none } := by
  have hfetch : s.fetch = .word p.word { s with prim := none } := by simp [State.fetch, hb, hp]
  rw [step, hfetch]

/-- Settles O4: each place of fetch presents the word, whose decoding reads CFG alone. -/
theorem stepRunsTheDecodedInstruction : Obligations.StepRunsTheDecodedInstruction := by
  refine fun s i => ⟨fun w txt rest hb hp hh hd => ?_, fun w rest hb hh hd => ?_, fun p hb hp hd => ?_⟩
  · exact (step_of_cmd hb hp hh).trans (State.run_of_decode hd)
  · exact (step_of_enc hb hh).trans (State.run_of_decode hd)
  · exact (step_of_prim hb hp).trans (State.run_of_decode hd)

theorem step_of_nothing {s r : State} (h : s.fetch = .nothing r) : step s = r.tick := by
  rw [step, h]

theorem State.fetch_of_pause {s : State} {rest : List HostInput} (hb : s.busy = true ∨ s.prim = none)
    (hh : s.host = .pause :: rest) : s.fetch = .nothing { s with host := rest } := by
  obtain hb | hp := hb
  · simp [State.fetch, State.fetchHost, hb, hh]
  · simp [State.fetch_of_prim_none hp, State.fetchHost, hh]

theorem State.tick_of_free {s : State} (hb : s.busy = false) : s.tick = .next s := by
  simp [State.tick, hb]

/-- Settles O58: nothing is fetched, so that the step is the sequencer's, which does nothing in a free state. -/
theorem nothingPresentedMovesOnlyTheSequencer : Obligations.NothingPresentedMovesOnlyTheSequencer := by
  refine fun s => ⟨fun hb hp hh => ?_, fun hb hp rest hh => ?_, fun hb hh => step_of_busy hb (.inl hh),
    fun hb rest hh => step_of_nothing (State.fetch_of_pause (.inl hb) hh)⟩
  · have hfetch : s.fetch = .nothing s := by simp [State.fetch_of_prim_none hp, State.fetchHost, hh]
    exact (step_of_nothing hfetch).trans (State.tick_of_free hb)
  · exact (step_of_nothing (State.fetch_of_pause (.inr hp) hh)).trans (State.tick_of_free (s := { s with host := rest }) hb)

/-! ## Texts with no pair -/

/-- R118: a text of full stops alone leaves no pair. -/
theorem layout_of_forall_dot {tb : List Byte} (h : ∀ c ∈ tb, c = 46) : layout tb = [] := by
  have hfold : fold tb = [] := by
    rw [← List.map_eq_nil_iff (f := Pair.ch), fold_map_ch, List.filter_eq_nil_iff]
    intro c hc
    simpa [dot] using h c hc
  rw [layout, hfold, List.take_nil]

/-- Settles O24: with no pair there is no frame, and an empty list ends at once. -/
theorem textWithoutPairsEndsAtOnce : Obligations.TextWithoutPairsEndsAtOnce := by
  intro text justify s hr hdots
  obtain ⟨hb, hp, -, -⟩ := (State.ready_iff s).1 hr
  have hlayout : layout (truncate text) = [] := layout_of_forall_dot hdots
  rw [exec_dispText_of_free hb, hlayout, State.accept_idle (s := { s with tb := truncate text, pl := [] }) _ hb]
  exact congrArg Host.Outcome.next (State.finish_of_free (s := { s with err := false, tb := truncate text, pl := [] }) hb hp)

end Sys2Proof.Machine

namespace Sys2Proof.Machine

/-! ## The assignments of a frame, by position -/

/-- The bits of a frame in the order WRREG sends them (R123). -/
def wireBits (f : Frame) : List Bool := msbFirst f.opcode ++ msbFirst f.data

theorem framePins_eq (f : Frame) : framePins f = ⟨.cs, false⟩ :: ((wireBits f).flatMap bitPins ++ [⟨.cs, true⟩]) := by
  simp [framePins, wireBits, shiftPins_eq]

/-- R63: the bits are those of the frame's word, bit 15 first. -/
theorem wireBits_getElem? {f : Frame} {j : Nat} (hj : j < 16) : (wireBits f)[j]? = some (f.word.getLsbD (15 - j)) := by
  rw [Frame.word, BitVec.getLsbD_append]
  interval_cases j <;> rfl

/-- R124: assignment i of bit j. -/
theorem getElem?_flatMap_bitPins (bits : List Bool) (l : List Assign) {j i : Nat} {b : Bool} (hb : bits[j]? = some b)
    (hi : i < 3) : (bits.flatMap bitPins ++ l)[3 * j + i]? = (bitPins b)[i]? := by
  induction bits generalizing j with
  | nil => cases hb
  | cons b' rest ih =>
    rw [List.flatMap_cons, List.append_assoc]
    cases j with
    | zero =>
      cases hb
      rw [Nat.mul_zero, Nat.zero_add]
      exact List.getElem?_append_left hi
    | succ j =>
      have hlen : (bitPins b').length = 3 := rfl
      rw [List.getElem?_append_right (by omega), hlen, ← ih hb]
      congr 1
      omega

theorem framePins_getElem? (f : Frame) {j i : Nat} (hj : j < 16) (hi : i < 3) :
    (framePins f)[3 * j + i + 1]? = (bitPins (f.word.getLsbD (15 - j)))[i]? := by
  rw [framePins_eq, List.getElem?_cons_succ, getElem?_flatMap_bitPins _ _ (wireBits_getElem? hj) hi]

/-- Settles O12: the frame's bits one after the other (`framePins_getElem?`), between the two assignments of CS. -/
theorem frameIsFiftyAssignments : Obligations.FrameIsFiftyAssignments := fun f =>
  ⟨framePins_length f, rfl, fun _ hj => ⟨framePins_getElem? f (i := 0) hj (by decide),
    framePins_getElem? f (i := 1) hj (by decide), framePins_getElem? f (i := 2) hj (by decide)⟩, rfl⟩

/-! ## The receiver at each assignment -/

section
variable {s : State} {v : Bool}

/-- An assignment that repeats the level of its line is recorded in WIRE only (D24). -/
theorem State.drive_cs_repeat (h : s.cs = v) : s.drive ⟨.cs, v⟩ = { s with wire := s.wire ++ [⟨.cs, v⟩] } := by
  subst h; rfl

theorem State.drive_clk_repeat (h : s.clk = v) : s.drive ⟨.clk, v⟩ = { s with wire := s.wire ++ [⟨.clk, v⟩] } := by
  subst h; rfl

end

/-- Settles O14: R134's branch of the rising edge. -/
theorem raisingChipSelectEarlyFaults : Obligations.RaisingChipSelectEarlyFaults :=
  fun _ hcs hn => (State.pin_cs_rise hcs).trans (if_neg hn)

/-- R133: the frame committed, as numbers of SR. -/
theorem State.pin_cs_commit {s : State} (hcs : s.cs = false) (hn : s.count = 16) :
    s.pin ⟨.cs, true⟩ = .next { s with
      cs := true, wire := s.wire ++ [⟨.cs, true⟩],
      frames := s.frames ++ [⟨BitVec.ofNat 8 (s.sr.toNat / 256), BitVec.ofNat 8 s.sr.toNat⟩],
      sink := Memory.write s.sink (s.sr.toNat / 256) (BitVec.ofNat 8 s.sr.toNat) } := by
  have hop : (BitVec.ofNat 8 (s.sr.toNat / 256)).toNat = s.sr.toNat / 256 := by
    have hsr : s.sr.toNat < 65536 := s.sr.isLt
    rw [BitVec.toNat_ofNat]
    omega
  have hn : s.count = frameBits := hn
  rw [State.pin_cs_rise hcs, if_pos hn, State.srFrame_eq, State.commit, State.drive_sink, hop]
  rfl

/-- Settles O13: an assignment by its line and edge, each by the receiver's rule for it. -/
theorem receiverFollowsTheEdges : Obligations.ReceiverFollowsTheEdges := by
  refine fun s => ⟨fun hcs => State.pin_cs_fall hcs, fun hclk hcs => ?_, fun hcs => ?_, fun hclk _ => ?_, fun hcs v => ?_,
    State.pin_clk_quiet nofun, fun v => State.pin_data v s, fun hcs hn => State.pin_cs_commit hcs hn,
    fun hcs => State.pin_cs_repeat hcs⟩
  · rw [State.pin_clk_rise hcs hclk, State.sample, State.drive_sr, shiftIn_eq_ofNat]
    rfl
  · rw [State.pin_cs_quiet hcs, State.drive_cs_repeat hcs]
  · have hquiet : ¬(s.cs = false ∧ s.clk = false ∧ true = true) := by simp [hclk]
    rw [State.pin_clk_quiet hquiet, State.drive_clk_repeat hclk]
  · have hquiet : ¬(s.cs = false ∧ s.clk = false ∧ v = true) := by simp [hcs]
    exact State.pin_clk_quiet hquiet

/-- Settles O15: R135 for a frame and for a list of frames. -/
theorem wiresAndFramesAgree : Obligations.WiresAndFramesAgree :=
  fun _ hcs hclk => ⟨State.pins_framePins hcs hclk, State.pins_pinsOf hcs hclk⟩

/-! ## SHIFTOUT -/

/-- Outside a frame the three assignments of a bit leave DATA at it and do not move the receiver. -/
theorem State.pins_bitPins_outside {s : State} (hcs : s.cs = true) (hclk : s.clk = false) (b : Bool) :
    s.pins (bitPins b) = .next { s with data := b, wire := s.wire ++ bitPins b } := by
  simp [State.pins, bitPins, State.pin_data, State.pin_clk_quiet, State.drive, hcs, hclk]

theorem State.pins_bits_outside {s : State} (hcs : s.cs = true) (hclk : s.clk = false) (bits : List Bool) :
    s.pins (bits.flatMap bitPins) = .next { s with
      data := bits.getLastD s.data, wire := s.wire ++ bits.flatMap bitPins } := by
  induction bits generalizing s with
  | nil => simp [State.pins]
  | cons b rest ih =>
    rw [List.flatMap_cons, State.pins_append_next (State.pins_bitPins_outside hcs hclk b)]
    refine (ih (s := { s with data := b, wire := _ }) hcs hclk).trans ?_
    simp [List.getLast?_cons]

/-- R124: what SHIFTOUT leaves outside a frame. -/
theorem State.pins_shiftPins_outside {s : State} (hcs : s.cs = true) (hclk : s.clk = false) (b : Byte) :
    s.pins (shiftPins b) = .next { s with data := b.getLsbD 0, wire := s.wire ++ shiftPins b } := by
  rw [shiftPins_eq, State.pins_bits_outside hcs hclk]
  rfl

/-- Settles O16: the eight bits of the byte, inside and outside a frame. -/
theorem shiftOutMovesEightBits : Obligations.ShiftOutMovesEightBits :=
  fun _ b hclk => ⟨fun hcs => State.pins_shiftPins hcs hclk b, fun hcs => State.pins_shiftPins_outside hcs hclk b⟩

/-! ## The primitives called directly -/

/-- Settles O25: one frame sent by itself. -/
theorem wrregRunsToItsEnd : Obligations.WrregRunsToItsEnd :=
  fun op data _ hr hw => State.sendFrame_runs hr hw ⟨op, data⟩

/-- Settles O26: the 24 assignments outside a frame (`State.pins_shiftPins_outside`), and one step more for the end. -/
theorem shiftOutRunsToItsEnd : Obligations.ShiftOutRunsToItsEnd := by
  intro b s hr hw
  obtain ⟨hb, hp, hcs, hclk⟩ := (State.ready_iff s).1 hr
  have hne : shiftPins b ≠ [] := List.cons_ne_nil _ _
  have hrun := State.steps_start hw false hne (State.pins_shiftPins_outside (s := { s with busy := true }) hcs hclk b)
  have haccept : execShiftOut b s = .next (s.start false (shiftPins b)) := State.whenFree_idle _ hb
  refine ⟨_, haccept, hrun.trans (congrArg Host.Outcome.next ?_)⟩
  exact State.finish_of_free (s := { s with data := b.getLsbD 0, wire := s.wire ++ shiftPins b }) hb hp

end Sys2Proof.Machine

namespace Sys2Proof.Machine

/-! ## What the sequencer leaves unchanged -/

/-- R127: a step of the sequencer is of the lines, the sink, busy, phase and life. -/
theorem State.tick_frame {s t : State} (h : s.tick = .next t) :
    t.cfg = s.cfg ∧ t.tb = s.tb ∧ t.pl = s.pl ∧ t.err = s.err ∧ t.errInfo = s.errInfo ∧ t.encIn = s.encIn ∧
    t.encOut = s.encOut ∧ t.host = s.host ∧ t.prim = s.prim := by
  obtain ⟨-, h'⟩ | ⟨-, isInit, a, rest, -, h'⟩ | ⟨-, isInit, -, h'⟩ | ⟨-, -, h'⟩ := State.tick_cases s <;>
    rw [h'] at h
  · cases h; exact ⟨rfl, rfl, rfl, rfl, rfl, rfl, rfl, rfl, rfl⟩
  · obtain ⟨hcfg, -, -, -, hrest⟩ := State.pin_frame h
    exact ⟨hcfg, hrest⟩
  · cases h; exact ⟨rfl, rfl, rfl, rfl, rfl, rfl, rfl, rfl, rfl⟩
  · cases h; exact ⟨rfl, rfl, rfl, rfl, rfl, rfl, rfl, rfl, rfl⟩

/-! ## Nothing is accepted while busy -/

/-- R148: every instruction but ENCODE (R67) is run by way of `State.whenFree`, whose test of busy decides. -/
theorem exec_of_busy {i : Instr} {s : State} (hb : s.busy = true) (hi : ∀ c dp, i ≠ .encode c dp) :
    exec i s = .next s := by
  cases i with
  | encode c dp => exact absurd rfl (hi c dp)
  | _ => exact if_pos hb

/-- Settles O30: instructions wait for the sequencer (`exec_of_busy`), whose steps do not touch the host's inputs. -/
theorem nothingIsAcceptedWhileBusy : Obligations.NothingIsAcceptedWhileBusy := by
  refine fun s hb => ⟨fun i hi => exec_of_busy hb hi, fun w txt rest hh => ?_⟩
  have hstep : step s = s.tick := step_of_busy hb (.inr ⟨w, txt, rest, hh⟩)
  refine ⟨hstep, fun t ht => ?_⟩
  obtain ⟨-, -, -, -, -, -, -, hhost, -⟩ := State.tick_frame (hstep.symm.trans ht)
  exact hhost

/-! ## The error output and the guard -/

/-- R104: only under the guard is an index refused. -/
theorem oorGuard_of_outOfRange {cfg : Cfg} {d : Byte} (h : outOfRange cfg d = true) : cfg.oorGuard = true :=
  (Bool.and_eq_true_iff.1 h).1

theorem State.errNeedsGuard_of_err {s : State} (h : s.err = false) : s.ErrNeedsGuard :=
  fun herr => absurd (h.symm.trans herr) nofun

/-- R146's rule speaks of err and CFG alone. -/
theorem State.ErrNeedsGuard.congr {s t : State} (h : s.ErrNeedsGuard) (hcfg : t.cfg = s.cfg) (herr : t.err = s.err) :
    t.ErrNeedsGuard := by
  unfold State.ErrNeedsGuard
  rw [hcfg, herr]
  exact h

/-- R146: an instruction raises err by the guard's refusal alone. -/
theorem State.ErrNeedsGuard.exec {s t : State} (h : s.ErrNeedsGuard) {i : Instr} (hst : Machine.exec i s = .next t) :
    t.ErrNeedsGuard := by
  cases exec_answers hst with
  | waits hb => exact h
  | encodes => exact h
  | refuses hb hg => exact fun _ => oorGuard_of_outOfRange hg
  | displays hb hl => exact State.errNeedsGuard_of_err (State.start_err ..)
  | commands hb hi hl => exact State.errNeedsGuard_of_err (State.start_err ..)
  | calls hb hl => exact h.congr (State.start_cfg ..) (State.start_err ..)

theorem State.ErrNeedsGuard.tick {s t : State} (h : s.ErrNeedsGuard) (hst : s.tick = .next t) : t.ErrNeedsGuard := by
  obtain ⟨hcfg, -, -, herr, -⟩ := State.tick_frame hst
  exact h.congr hcfg herr

/-- Settles O50: an instruction raises err under the guard only (`State.ErrNeedsGuard.exec`), the reset input lowers it,
and the sequencer leaves it. -/
theorem stepKeepsErrUnderTheGuard : Obligations.StepKeepsErrUnderTheGuard := by
  intro s t hs h
  obtain ⟨w, r, i, hf, -, he⟩ | ⟨r, hf, rfl⟩ | ⟨r, hf, ht⟩ := step_cases h
  · rw [State.fetch_rest (.inl ⟨w, hf⟩)] at he
    exact State.ErrNeedsGuard.exec (s := { s with host := r.host, prim := r.prim }) hs he
  · exact State.errNeedsGuard_of_err rfl
  · rw [State.fetch_rest (.inr (.inr hf))] at ht
    exact State.ErrNeedsGuard.tick (s := { s with host := r.host, prim := r.prim }) hs ht

end Sys2Proof.Machine

namespace Sys2Proof.Machine

/-! ## The reset input -/

/-- Busy, or with no direct call waiting (log 15), the block takes up what the host presents. -/
theorem State.fetch_eq_fetchHost {s : State} (hserved : s.busy = true ∨ s.prim = none) : s.fetch = s.fetchHost := by
  obtain hb | hp := hserved
  · exact if_pos hb
  · exact State.fetch_of_prim_none hp

theorem State.fetchHost_of_rst {s : State} {rest : List HostInput} (hh : s.host = .rst :: rest) :
    s.fetchHost = .reset { s with host := rest } := by
  rw [State.fetchHost, hh]

/-- R160: whenever the host is served, the reset input is taken up. -/
theorem step_of_rst {s : State} {rest : List HostInput} (hserved : s.busy = true ∨ s.prim = none)
    (hh : s.host = .rst :: rest) : step s = .next (State.restart { s with host := rest }) := by
  rw [step, State.fetch_eq_fetchHost hserved, State.fetchHost_of_rst hh]

/-- Settles O57: the step is `State.restart`, whose fields are those of R30 but for CFG and what the host drives. -/
theorem resetInputRestoresTheResetValues : Obligations.ResetInputRestoresTheResetValues :=
  fun _ _ hh hserved => ⟨_, step_of_rst hserved hh, rfl, rfl, rfl, rfl, rfl, rfl, rfl, rfl, rfl, rfl⟩

/-! ## The sink's registers after a list of frames -/

theorem State.emits_cfg (fs : List Frame) (s : State) : (State.emits fs s).cfg = s.cfg := by
  induction fs generalizing s with
  | nil => rfl
  | cons f rest ih => exact ih (s.emit f)

/-- R28, U4: frames to other named addresses leave a register. -/
theorem State.emits_content_of_forall_ne {fs : List Frame} {s : State} {a : Byte}
    (hnamed : ∀ f ∈ fs, s.cfg.named f.opcode = true) (hne : ∀ f ∈ fs, f.opcode ≠ a) :
    (State.emits fs s).content a = s.content a := by
  induction fs generalizing s with
  | nil => rfl
  | cons f rest ih =>
    obtain ⟨hf, hrest⟩ := List.forall_mem_cons.1 hnamed
    obtain ⟨hfne, hrestne⟩ := List.forall_mem_cons.1 hne
    calc (State.emits (f :: rest) s).content a
        _ = (s.emit f).content a := ih (s := s.emit f) hrest hrestne
        _ = s.content a := by rw [State.emit_content hf, if_neg hfne]

/-- R28, U4: of frames to distinct named addresses, each one's data is what its register holds after them all. -/
theorem State.emits_content_of_mem {fs : List Frame} {s : State} (hnamed : ∀ f ∈ fs, s.cfg.named f.opcode = true)
    (hnodup : (fs.map Frame.opcode).Nodup) {f : Frame} (hf : f ∈ fs) :
    (State.emits fs s).content f.opcode = f.data := by
  induction fs generalizing s with
  | nil => cases hf
  | cons g rest ih =>
    obtain ⟨hg, hrest⟩ := List.forall_mem_cons.1 hnamed
    obtain ⟨hnotin, hnodup⟩ := List.nodup_cons.1 hnodup
    obtain rfl | hf := List.mem_cons.1 hf
    · have hne : ∀ f' ∈ rest, f'.opcode ≠ f.opcode := fun f' hf' heq => hnotin (heq ▸ List.mem_map_of_mem hf')
      calc (State.emits (f :: rest) s).content f.opcode
          _ = (s.emit f).content f.opcode := State.emits_content_of_forall_ne (s := s.emit f) hrest hne
          _ = f.data := by rw [State.emit_content hg, if_pos rfl]
    · exact ih (s := s.emit g) hrest hnodup hf

theorem Cfg.named_iff (cfg : Cfg) (a : Byte) : cfg.named a = true ↔ (1 ≤ a ∧ a ≤ 8) ∨ a ∈ cfg.controlOps := by
  simp [Cfg.named]

/-! ## Frames to the digits and to INTENSITY -/

/-- R7: the four configuration opcodes are neither digit addresses nor OP_INTENSITY. -/
theorem Cfg.ne_of_digit_or_opIntensity {cfg : Cfg} (h : cfg.opsDistinct = true) {a op : Byte}
    (hop : op ∈ [cfg.opScanLimit, cfg.opDecodeMode, cfg.opShutdown, cfg.opDisplayTest])
    (ha : (1 ≤ a ∧ a ≤ 8) ∨ a = cfg.opIntensity) : a ≠ op := by
  obtain ⟨hnodup, hdigit⟩ := (Cfg.opsDistinct_iff cfg).1 h
  rintro rfl
  obtain ha | ha := ha
  · refine hdigit a ?_ ha
    simp only [Cfg.controlOps, List.mem_cons] at hop ⊢
    tauto
  · subst ha
    simp only [Cfg.controlOps, List.nodup_cons, List.mem_cons] at hnodup hop
    tauto

/-- Settles O39: the frames go to named addresses, and to none of the four (`State.emits_content_of_forall_ne`). -/
theorem otherCommandsKeepTheConfiguration : Obligations.OtherCommandsKeepTheConfiguration := by
  rintro fs s _ hops rfl haddr
  have hnamed : ∀ f ∈ fs, s.cfg.named f.opcode = true := fun f hf =>
    (haddr f hf).elim (fun hdigit => (Cfg.named_iff ..).2 (.inl hdigit)) fun hint => hint ▸ Cfg.named_opIntensity s.cfg
  have hkept : ∀ op ∈ [s.cfg.opScanLimit, s.cfg.opDecodeMode, s.cfg.opShutdown, s.cfg.opDisplayTest],
      (State.emits fs s).content op = s.content op := fun op hop =>
    State.emits_content_of_forall_ne hnamed fun f hf => Cfg.ne_of_digit_or_opIntensity hops hop (haddr f hf)
  simpa [State.scanLimit, State.decodeMode, State.shutdown, State.displayTest, State.emits_cfg] using hkept

/-! ## INIT's frames -/

/-- R90, R7: INIT sends one frame to each of the 13 named addresses. -/
theorem initFrames_opcodes_nodup {cfg : Cfg} (h : cfg.opsDistinct = true) :
    ((initFrames cfg).map Frame.opcode).Nodup := by
  obtain ⟨hnodup, hdigit⟩ := (Cfg.opsDistinct_iff cfg).1 h
  have hperm : ((initFrames cfg).map Frame.opcode).Perm (cfg.controlOps ++ clearFrames.map Frame.opcode) :=
    List.perm_iff_count.2 fun a => by
      simp only [initFrames, Cfg.controlOps, List.map_append, List.map_cons, List.map_nil, List.count_append,
        List.count_cons, List.count_nil]
      omega
  refine hperm.nodup_iff.2 (List.nodup_append.2 ⟨hnodup, by decide, ?_⟩)
  rintro op hop _ hclear rfl
  obtain ⟨f, hf, rfl⟩ := List.mem_map.1 hclear
  exact hdigit _ hop (digit_of_mem_clearFrames hf)

theorem State.emits_initFrames_content {s : State} (h : s.cfg.opsDistinct = true) {f : Frame}
    (hf : f ∈ initFrames s.cfg) : (State.emits (initFrames s.cfg) s).content f.opcode = f.data :=
  State.emits_content_of_mem (fun _ hg => (Cfg.named_iff ..).2 (named_of_mem_initFrames hg))
    (initFrames_opcodes_nodup h) hf

/-- R92, R101: position 0 to 7 has one of the eight frames of CLEAR. -/
theorem addr_frame_mem_clearFrames {d : Byte} (hd : d ≤ 7) : (⟨addr d, blank⟩ : Frame) ∈ clearFrames := by
  have haddr : addr d ∈ ([1, 2, 3, 4, 5, 6, 7, 8] : List Byte) := by
    simp only [addr, List.mem_cons, List.not_mem_nil, or_false]
    bv_omega
  exact List.mem_map_of_mem (f := fun k => (⟨k, blank⟩ : Frame)) haddr

/-- Settles O38: INIT's frames go to distinct addresses, so that each register holds its frame's data
(`State.emits_initFrames_content`). -/
theorem initConfiguresTheSink : Obligations.InitConfiguresTheSink := by
  rintro s _ hops rfl
  have hcontent (op data : Byte) (hmem : ⟨op, data⟩ ∈ initFrames s.cfg) :=
    State.emits_initFrames_content hops hmem
  simp only [State.scanLimit, State.decodeMode, State.shutdown, State.displayTest, State.digit, State.intensity,
    State.emits_cfg]
  refine ⟨hcontent _ _ ?_, hcontent _ _ ?_, hcontent _ _ ?_, hcontent _ _ ?_, fun d hd => hcontent _ _ ?_,
    hcontent _ _ ?_⟩
  case refine_5 => exact List.mem_append_left _ (List.mem_append_right _ (addr_frame_mem_clearFrames hd))
  all_goals simp [initFrames, scanLimitValue, decodeModeValue]

end Sys2Proof.Machine
